-- ==== Sys2Proof/Word.lean ====
section
/-! DEFINITION. The words of CORE (spec/00_scope.md R11, R12): unsigned, bit 0 least significant; nothing is signed. -/
namespace Sys2Proof

/-- A `u8` of the spec. -/
abbrev Byte := BitVec 8

/-- A `u16` of the spec: a syncword, a length operand, a CRC, a response value. -/
abbrev Half := BitVec 16

/-- The command word `W` (spec/30_encoding.md R40): `op[39:32] a[31:16] b[15:0]`. -/
abbrev CommandWord := BitVec 40

/-- `zext_9(maxPacketLength) + 2` and other payload sizes, 2 to 257 (spec/00_scope.md R12). -/
abbrev PayloadSize := BitVec 9

/-- AddressBytes (spec/10_state.md R27 a): five bytes, `b0` is element 0, the first handed over (spec/20_memory.md R31 c). -/
structure Address where
  b0 : Byte
  b1 : Byte
  b2 : Byte
  b3 : Byte
  b4 : Byte
deriving DecidableEq, Repr

/-- The address as the sequence handed to the transceiver, element 0 first. -/
def Address.toList (a : Address) : List Byte := [a.b0, a.b1, a.b2, a.b3, a.b4]

end Sys2Proof
end

