-- ==== Sys2Proof/Machine/Functions.lean ====
section
/-! DEFINITION. The constants the source fixes (spec/00_scope.md R9, R10) and the pure units of spec/40_functions.md: Bit
Reverser, CRC Engine, Address Mapper, frame coding. They read no state, write none and cannot fail. -/
namespace Sys2Proof.Machine

/-- `SYNCWORD_LENGTH`, the fixed value of `cfg.syncwordLength` (R9, R19). -/
def syncwordLengthValue : Byte := 5

/-- `CRC_POLY`, the reversed CRC polynomial (R9, R52). -/
def crcPoly : Half := 0x8408

/-- `CRC_INIT` (R9, R54). -/
def crcInit : Half := 0x0000

/-- `CRC_BYTES`, the width of the CRC trailer (R9). -/
def crcBytes : Nat := 2

/-- `TX_REPEAT`, how often a frame is written (R9, R80). -/
def txRepeat : Nat := 3

/-- `STATUS_OK` (R10, D13). -/
def statusOkValue : Half := 0x0000

/-- Bit `i` of `x` as a byte of value 0 or 1 (R11). -/
def bitOf (x : Byte) (i : Nat) : Byte := (x >>> i) &&& 1

/-- The Bit Reverser (R51): `y = x[0]<<7 | x[1]<<6 | ... | x[7]`. -/
def reverse (x : Byte) : Byte :=
  (bitOf x 0 <<< 7) ||| (bitOf x 1 <<< 6) ||| (bitOf x 2 <<< 5) ||| (bitOf x 3 <<< 4) |||
  (bitOf x 4 <<< 3) ||| (bitOf x 5 <<< 2) ||| (bitOf x 6 <<< 1) ||| bitOf x 7

/-- One bit step of the CRC Engine (R52). -/
def crcBit (state : Half) (d : Bool) : Half :=
  if (d ^^ state.getLsbD 0) = true then (state >>> 1) ^^^ crcPoly else state >>> 1

/-- One byte step: the eight bits of `x`, least significant first (R53). -/
def crcByte (state : Half) (x : Byte) : Half :=
  [0, 1, 2, 3, 4, 5, 6, 7].foldl (fun s i => crcBit s (x.getLsbD i)) state

/-- The CRC of a byte sequence (R54). -/
def crc16 (data : List Byte) : Half := data.foldl crcByte crcInit

/-- `c[7:0]`. -/
def lowByte (c : Half) : Byte := c.extractLsb' 0 8

/-- `c[15:8]`. -/
def highByte (c : Half) : Byte := c.extractLsb' 8 8

/-- The CRC trailer, low byte first (R31 a). -/
def crcTrailer (c : Half) : List Byte := [lowByte c, highByte c]

/-- The Address Mapper (R55): the five assignments. -/
def deriveAddress (s0 s3 : Half) : Address where
  b4 := reverse ((((s0 <<< 4) &&& 0xF0).setWidth 8) ||| (if s0.getLsbD 0 then 0x05 else 0x0A))
  b3 := reverse (((s0 >>> 4) &&& 0xFF).setWidth 8)
  b2 := reverse ((((s0 >>> 12) &&& 0x0F).setWidth 8) ||| (((s3 <<< 4) &&& 0xF0).setWidth 8))
  b1 := reverse (((s3 >>> 4) &&& 0xFF).setWidth 8)
  b0 := reverse ((((s3 >>> 12) &&& 0x0F).setWidth 8) ||| (if s3.getLsbD 15 then 0xA0 else 0x50))

/-- The wire frame of a payload (R56): CRC over the unreversed bytes, trailer appended, then every byte reversed. -/
def frameEncode (p : List Byte) : List Byte := (p ++ crcTrailer (crc16 p)).map reverse

/-- The packet of a raw frame (R57). `some payload` is the spec's `(true, payload)`, `none` its `(false, [])`. -/
def frameDecode (r : List Byte) (crcEnabled : Bool) : Option (List Byte) :=
  let u := r.map reverse
  let payload := u.take (u.length - crcBytes)
  if crcEnabled then
    if u.drop (u.length - crcBytes) = crcTrailer (crc16 payload) then some payload else none
  else some u

end Sys2Proof.Machine
end

