-- ==== Sys2Proof/Config.lean ====
section
/-! DEFINITION. What an instance of CORE fixes (spec/00_scope.md R10) and the free values.

The spec leaves nine parameters open. `Params` holds those that have a value; `PowerLevel` and `DataRate` are the two it
calls opaque symbols. The constants below are the parameters of the one instance `State.reset` describes: they have no
body, so nothing proved can rest on a value of one. -/
namespace Sys2Proof

/-- The open parameters of an instance (spec/00_scope.md R10). -/
structure Params where
  /-- `CAP`: Packet Buffer capacity in bytes. -/
  cap : Nat
  /-- `RESET_SYNCWORD0` -/
  resetSyncword0 : Half
  /-- `RESET_SYNCWORD3` -/
  resetSyncword3 : Half
  /-- `RESET_MAXLEN` -/
  resetMaxLen : Byte
  /-- `RESET_CRC` -/
  resetCrc : Bool
  /-- `RESET_CHANNEL` -/
  resetChannel : Byte
  /-- `RX_PIPE_INDEX` -/
  rxPipeIndex : Nat
deriving DecidableEq, Repr

/-- The one constraint R10 puts on the parameters: `1 <= CAP <= 65535`. -/
abbrev Params.Wf (p : Params) : Prop := 1 ≤ p.cap ∧ p.cap ≤ 65535

/-- `POWER_MAX`, a symbol CORE only passes on (spec/00_scope.md R10, 92_eei_decisions.md D30). Log entry 5. -/
inductive PowerLevel where
  | powerMax
deriving DecidableEq, Repr

/-- `RATE_HIGH`, a symbol CORE only passes on (spec/00_scope.md R10, 92_eei_decisions.md D30). Log entry 5. -/
inductive DataRate where
  | rateHigh
deriving DecidableEq, Repr

namespace Config

/-- `CAP - 1` of the instance: `CAP` is 1 to 65535 and otherwise open (D8). DESIGN CHOICE: log entry 2. -/
opaque capLessOne : Fin 65535

/-- `CAP` of the instance. -/
def cap : Nat := capLessOne.val + 1

/-- `RESET_SYNCWORD0` of the instance (D9). DESIGN CHOICE: log entry 3. -/
opaque resetSyncword0 : BitVec 16

/-- `RESET_SYNCWORD3` of the instance (D9). DESIGN CHOICE: log entry 3. -/
opaque resetSyncword3 : BitVec 16

/-- `RESET_MAXLEN` of the instance (D9). DESIGN CHOICE: log entry 3. -/
opaque resetMaxLen : BitVec 8

/-- `RESET_CRC` of the instance (D9). DESIGN CHOICE: log entry 3. -/
opaque resetCrc : Bool

/-- `RESET_CHANNEL` of the instance (D9). DESIGN CHOICE: log entry 3. -/
opaque resetChannel : BitVec 8

/-- `RX_PIPE_INDEX` of the instance (D14). DESIGN CHOICE: log entry 4. -/
opaque rxPipeIndex : Nat

/-- The parameters of the instance. -/
def params : Params where
  cap := cap
  resetSyncword0 := resetSyncword0
  resetSyncword3 := resetSyncword3
  resetMaxLen := resetMaxLen
  resetCrc := resetCrc
  resetChannel := resetChannel
  rxPipeIndex := rxPipeIndex

/-- The free value of the `k`-th answer drawn, as a byte of `readBytes` (spec/20_memory.md R36). Log entry 9. -/
opaque freeByte : Nat → BitVec 8

/-- The free value of the `k`-th answer drawn, as an answer of `isDataAvailable` (spec/20_memory.md R36). Log entry 9. -/
opaque freeAvailable : Nat → Bool

end Config

end Sys2Proof
end

