-- ==== Sys2Proof/Syntax.lean ====
section
/-! DEFINITION. The instruction set: CORE's ten public operations with their operands (spec/30_encoding.md R39, R41), in
the order of their opcodes. -/
namespace Sys2Proof

/-- One constructor for each row of spec/opcode_table.json, with the operands of spec/30_encoding.md R41. -/
inductive Instr where
  /-- `open()`, opcode 0x00. (The bare name is a keyword of Lean.) -/
  | openRadio
  /-- `setSyncword(sw0, sw3)`, opcode 0x01. -/
  | setSyncword (sw0 sw3 : Half)
  /-- `setMaxPacketLength(n)`, opcode 0x02. -/
  | setMaxPacketLength (n : Byte)
  /-- `setCRC(enabled)`, opcode 0x03. -/
  | setCRC (enabled : Bool)
  /-- `receive(channel)`, opcode 0x04. -/
  | receive (channel : Byte)
  /-- `readFIFO(maxLength)`, opcode 0x05. -/
  | readFIFO (maxLength : Half)
  /-- `writeFIFO(data, length)`, opcode 0x06: `data` are the `length` bytes that follow the command word (R43). -/
  | writeFIFO (length : Half) (data : List Byte)
  /-- `transmit(channel)`, opcode 0x07. -/
  | transmit (channel : Byte)
  /-- `setPreambleLength(n)`, opcode 0x08. -/
  | setPreambleLength (n : Byte)
  /-- `setTrailerLength(n)`, opcode 0x09. -/
  | setTrailerLength (n : Byte)
deriving DecidableEq, Repr

end Sys2Proof
end

