-- ==== Sys2Proof/WellFormed.lean ====
section
/-! DEFINITION. Which terms of `Instr` are instructions. Every operand value is accepted (spec/30_encoding.md R41,
spec/60_exceptions.md R86); the one condition is that `writeFIFO` carries exactly `length` data bytes (R43). -/
namespace Sys2Proof

/-- The check: `writeFIFO` has exactly as many data bytes as its length operand says (spec/30_encoding.md R43). -/
def wellFormed : Instr → Bool
  | .openRadio => true
  | .setSyncword _ _ => true
  | .setMaxPacketLength _ => true
  | .setCRC _ => true
  | .receive _ => true
  | .readFIFO _ => true
  | .writeFIFO length data => decide (data.length = length.toNat)
  | .transmit _ => true
  | .setPreambleLength _ => true
  | .setTrailerLength _ => true

/-- The check as a proposition. -/
abbrev WellFormed (i : Instr) : Prop := wellFormed i = true

end Sys2Proof
end

