-- ==== Sys2Proof/Decode.lean ====
section
/-! DEFINITION. The command port's items, the decoder (total, rejecting by name) and the encoder, both from
spec/30_encoding.md R39 to R44. -/
namespace Sys2Proof

/-- One item the host presents on the command port: a command word, presented whole (R40), or one data byte (R43). -/
inductive PortItem where
  | word (w : CommandWord)
  | data (x : Byte)
deriving DecidableEq, Repr

/-- Why the front of the command port is not an operation. -/
inductive InvalidReason where
  /-- Opcodes 0x0A to 0xFF are reserved (R44 a). -/
  | reservedOpcode (op : Byte)
  /-- A `writeFIFO` word is followed by fewer than `length` data bytes (R44 b). Log entry 8. -/
  | shortData (length : Half)
  /-- A data byte stands where a command word is expected (R40, R43): no rule gives it a meaning. Log entry 7. -/
  | strayData
  /-- The host has presented nothing (10_state.md R24): there is no operation to execute. Log entry 7. -/
  | noCommand
deriving DecidableEq, Repr

/-- The decoder's verdict: an operation with what follows it on the port, or `invalid` (R44 c). -/
inductive Decoded where
  | instr (i : Instr) (rest : List PortItem)
  | invalid (why : InvalidReason)
deriving DecidableEq, Repr

/-- `W[39:32]` (R40). -/
def opField (w : CommandWord) : Byte := w.extractLsb' 32 8

/-- `W[31:16]` (R40). -/
def aField (w : CommandWord) : Half := w.extractLsb' 16 16

/-- `W[15:0]` (R40). -/
def bField (w : CommandWord) : Half := w.extractLsb' 0 16

/-- `b[7:0]`, the operand of the u8 operations (R41). -/
def byteOperand (w : CommandWord) : Byte := (bField w).extractLsb' 0 8

/-- `b[0]`, the bool operand, 1 = true (R41). -/
def boolOperand (w : CommandWord) : Bool := (bField w).getLsbD 0

/-- The first `n` data bytes of the items and what follows them, if there are that many before anything else (R43). -/
def takeData : Nat → List PortItem → Option (List Byte × List PortItem)
  | 0, items => some ([], items)
  | n + 1, .data x :: items =>
    match takeData n items with
    | some (xs, rest) => some (x :: xs, rest)
    | none => none
  | _ + 1, .word _ :: _ => none
  | _ + 1, [] => none

/-- A `writeFIFO` word with length operand `length`: its data are the next `length` items (R43, R44 b). -/
def decodeWrite (length : Half) (items : List PortItem) : Decoded :=
  match takeData length.toNat items with
  | some (xs, rest) => .instr (.writeFIFO length xs) rest
  | none => .invalid (.shortData length)

/-- The operation of a command word followed by `items` (R39, R41); operand bits the table does not name are ignored. -/
def decodeWord (w : CommandWord) (items : List PortItem) : Decoded :=
  match (opField w).toNat with
  | 0 => .instr .openRadio items
  | 1 => .instr (.setSyncword (aField w) (bField w)) items
  | 2 => .instr (.setMaxPacketLength (byteOperand w)) items
  | 3 => .instr (.setCRC (boolOperand w)) items
  | 4 => .instr (.receive (byteOperand w)) items
  | 5 => .instr (.readFIFO (bField w)) items
  | 6 => decodeWrite (bField w) items
  | 7 => .instr (.transmit (byteOperand w)) items
  | 8 => .instr (.setPreambleLength (byteOperand w)) items
  | 9 => .instr (.setTrailerLength (byteOperand w)) items
  | _ => .invalid (.reservedOpcode (opField w))

/-- The decoder. -/
def decode : List PortItem → Decoded
  | [] => .invalid .noCommand
  | .data _ :: _ => .invalid .strayData
  | .word w :: items => decodeWord w items

/-- The opcode (R39). -/
def opcode : Instr → Byte
  | .openRadio => 0x00
  | .setSyncword _ _ => 0x01
  | .setMaxPacketLength _ => 0x02
  | .setCRC _ => 0x03
  | .receive _ => 0x04
  | .readFIFO _ => 0x05
  | .writeFIFO _ _ => 0x06
  | .transmit _ => 0x07
  | .setPreambleLength _ => 0x08
  | .setTrailerLength _ => 0x09

/-- Field `a` as the encoder writes it; bits R41 does not name are written 0 (DESIGN CHOICE, log entry 23). -/
def operandA : Instr → Half
  | .openRadio => 0
  | .setSyncword sw0 _ => sw0
  | .setMaxPacketLength _ => 0
  | .setCRC _ => 0
  | .receive _ => 0
  | .readFIFO _ => 0
  | .writeFIFO _ _ => 0
  | .transmit _ => 0
  | .setPreambleLength _ => 0
  | .setTrailerLength _ => 0

/-- Field `b` as the encoder writes it; bits R41 does not name are written 0 (DESIGN CHOICE, log entry 23). -/
def operandB : Instr → Half
  | .openRadio => 0
  | .setSyncword _ sw3 => sw3
  | .setMaxPacketLength n => n.setWidth 16
  | .setCRC enabled => if enabled then 1 else 0
  | .receive channel => channel.setWidth 16
  | .readFIFO maxLength => maxLength
  | .writeFIFO length _ => length
  | .transmit channel => channel.setWidth 16
  | .setPreambleLength n => n.setWidth 16
  | .setTrailerLength n => n.setWidth 16

/-- The data bytes that follow the command word (R43): `writeFIFO` alone has any. -/
def dataBytes : Instr → List Byte
  | .openRadio => []
  | .setSyncword _ _ => []
  | .setMaxPacketLength _ => []
  | .setCRC _ => []
  | .receive _ => []
  | .readFIFO _ => []
  | .writeFIFO _ data => data
  | .transmit _ => []
  | .setPreambleLength _ => []
  | .setTrailerLength _ => []

/-- A command word from its three fields (R40). -/
def assembleWord (op : Byte) (a b : Half) : CommandWord := op ++ a ++ b

/-- The command word of an instruction (R40). -/
def encodeWord (i : Instr) : CommandWord := assembleWord (opcode i) (operandA i) (operandB i)

/-- The encoder: the command word, then the data bytes, `data[0]` first (R43). -/
def encode (i : Instr) : List PortItem := .word (encodeWord i) :: (dataBytes i).map .data

/-- How many data bytes follow the word (R43): the decoder learns it from `b` of a `writeFIFO` word and from nothing else. -/
def dataCount (w : CommandWord) : Nat :=
  if opField w = 0x06 then (bField w).toNat else 0

/-- The items of an instruction whose bits are `w`: the command word is bits 39:0, data byte `k` is bits `40+8k` and up;
bits from `nbits` on are 0. Log entry 25. -/
def tableItems (nbits w : Nat) : List PortItem :=
  let v := w % 2 ^ nbits
  let cw : CommandWord := BitVec.ofNat 40 v
  .word cw :: (List.range (dataCount cw)).map fun k => .data (BitVec.ofNat 8 (v >>> (40 + 8 * k)))

/-- The instruction the decoder reads from an instruction whose bits are `w`. -/
def decodeTableWord (nbits w : Nat) : Option Instr :=
  match decode (tableItems nbits w) with
  | .instr i _ => some i
  | .invalid _ => none

end Sys2Proof
end

