-- ==== Sys2Proof/Machine/State.lean ====
section
/-! DEFINITION. CORE's state (spec/10_state.md R16) and its four ports (spec/92_eei_decisions.md D1), what it hands out on
them, and the two ways a step can stop. -/
namespace Sys2Proof.Machine

/-- The Packet Buffer space (spec/20_memory.md R28, 10_state.md R23): the bytes `buf[0..length-1]`, front first. Cells from
`length` on are not state (D27), so equal buffers are equal lists. Log entry 17. -/
abbrev Memory := List Byte

/-- The buffer's canonical form: it never exceeds its capacity (10_state.md R23). -/
def Memory.wf (cap : Nat) (m : Memory) : Bool := decide (m.length ≤ cap)

/-- RadioConfiguration, the control registers (10_state.md R17 to R22). `syncwordLength` is hard-wired: it is the accessor
`RadioConfiguration.syncwordLength` of Machine/Operands.lean. -/
structure RadioConfiguration where
  syncword0 : Half
  syncword3 : Half
  maxPacketLength : Byte
  crcEnabled : Bool
  channel : Byte
deriving DecidableEq, Repr

/-- The transceiver calls T0 to T14 with the arguments CORE passes (spec/30_encoding.md R45). -/
inductive TCall where
  | begin
  | setAutoAck (on : Bool)
  | setPowerLevel (level : PowerLevel)
  | setDataRate (rate : DataRate)
  | disableHardwareCRC
  | setAddressWidth (n : Byte)
  | setPayloadSize (n : PayloadSize)
  | openWritingPipe (address : Address)
  | openReadingPipe (index : Nat) (address : Address)
  | setChannel (n : Byte)
  | startListening
  | stopListening
  | isDataAvailable
  | readBytes (length : PayloadSize)
  | writeBytes (buffer : List Byte) (length : Nat)
deriving DecidableEq, Repr

/-- The response of an operation (spec/30_encoding.md R42). -/
structure Response where
  ret : Half
  count : Half
  data : List Byte
deriving DecidableEq, Repr

/-- The transceiver answer port (spec/20_memory.md R36): the answers given for the calls to come. `available` are those to
`isDataAvailable` in order, `bytes` the bytes `readBytes` will yield in order; a call that finds none left is answered by a
free value of Config, the `drawn`-th. Log entries 9 and 10. -/
structure Answers where
  available : List Bool
  bytes : List Byte
  drawn : Nat
deriving DecidableEq, Repr

/-- The state view (10_state.md R26): computed, never stored. -/
inductive View where
  | idle
  | listening
  | packetReady
deriving DecidableEq, Repr

/-- CORE's state. The registers are `cfg`, `buf`, `receivedFlag` and `listening` (10_state.md R16; `length` is
`State.length`); the other fields are the model's own: the parameters of the instance (log entry 1) and the four ports
(log entries 6, 9, 12, 13). -/
structure State where
  /-- The instance's parameters (00_scope.md R10); written by nothing. -/
  params : Params
  cfg : RadioConfiguration
  buf : Memory
  receivedFlag : Bool
  listening : Bool
  /-- The command port: presented and not yet executed, oldest first. -/
  commands : List PortItem
  /-- The transceiver answer port. -/
  answers : Answers
  /-- The call trace: every transceiver call emitted, oldest first (00_scope.md R8 ii). -/
  trace : List TCall
  /-- The response port: every response produced, oldest first (00_scope.md R8 i). -/
  responses : List Response
deriving DecidableEq, Repr

/-- Why the machine faults: never. CORE raises no exception (spec/60_exceptions.md R84, R90: a model has no fault
constructor to invent), so no one raises a fault, and the absence is safe. Log entry 19. -/
inductive Fault where
deriving DecidableEq, Repr

/-- Why a step gives no meaning. -/
inductive Refusal where
  /-- Raised by `exec` for an instruction that has no meaning yet; every instruction has one, so by no arm. Safe. -/
  | notModelled (mnemonic : String)
  /-- Raised by `step` when the front of the command port is no operation (spec/30_encoding.md R44 c, 60_exceptions.md R94):
  CORE takes no step. Safe: the model stops and claims nothing. -/
  | invalidCommand (why : InvalidReason)
deriving DecidableEq, Repr

/-- The configuration of the reset state (70_reset_and_hazards.md R97). -/
def RadioConfiguration.reset (p : Params) : RadioConfiguration where
  syncword0 := p.resetSyncword0
  syncword3 := p.resetSyncword3
  maxPacketLength := p.resetMaxLen
  crcEnabled := p.resetCrc
  channel := p.resetChannel

/-- `ResetState` of an instance with parameters `p` (70_reset_and_hazards.md R97, R98): the call trace is empty. -/
def State.resetOf (p : Params) : State where
  params := p
  cfg := RadioConfiguration.reset p
  buf := []
  receivedFlag := false
  listening := false
  commands := []
  answers := ⟨[], [], 0⟩
  trace := []
  responses := []

/-- CORE right after hardware reset: `ResetState` of the instance of Config, whose parameters are uninterpreted. -/
def State.reset : State := State.resetOf Config.params

end Sys2Proof.Machine
end

