-- ==== Sys2Proof/Machine/Operands.lean ====
section
/-! DEFINITION. Operand and register values as the operations use them: lengths, clamps, comparisons, and the arithmetic of
spec/40_functions.md R58. How an operand is taken from the command word is Decode.lean (spec/30_encoding.md R41). -/
namespace Sys2Proof.Machine

/-- `length`, always `|buf|` (spec/10_state.md R23): a view, log entry 14. -/
def State.length (s : State) : Nat := s.buf.length

/-- `cfg.syncwordLength`, hard-wired to 5 (spec/10_state.md R19). Log entry 16. -/
def RadioConfiguration.syncwordLength (_ : RadioConfiguration) : Byte := syncwordLengthValue

/-- The transceiver payload size `zext_9(cfg.maxPacketLength) + 2` (spec/10_state.md R27 b, 41_config_commands.md R62). -/
def RadioConfiguration.payloadSize (c : RadioConfiguration) : PayloadSize :=
  c.maxPacketLength.setWidth 9 + 2

/-- AddressBytes of the configuration (spec/10_state.md R27 a). -/
def RadioConfiguration.address (c : RadioConfiguration) : Address :=
  deriveAddress c.syncword0 c.syncword3

/-- A length operand as a natural number (spec/30_encoding.md R41). -/
def lengthOperand (n : Half) : Nat := n.toNat

/-- A length as a response value (spec/30_encoding.md R42, `zext_16`); lengths are at most `CAP <= 65535`. -/
def lengthValue (n : Nat) : Half := BitVec.ofNat 16 n

/-- How many of `n` offered bytes the buffer takes (spec/42_buffer_commands.md R70). -/
def clampWrite (n cap : Nat) : Nat := min n cap

/-- How many of `maxLength` requested bytes a buffer of `length` bytes gives (spec/42_buffer_commands.md R71). -/
def clampRead (maxLength length : Nat) : Nat := min maxLength length

/-- Change detection of `setSyncword` (spec/41_config_commands.md R63): either half differing counts. -/
def syncwordChanged (sw0 sw3 : Half) (c : RadioConfiguration) : Bool :=
  sw0 != c.syncword0 || sw3 != c.syncword3

/-- Change detection of `setMaxPacketLength` (spec/41_config_commands.md R64). -/
def maxPacketLengthChanged (n : Byte) (c : RadioConfiguration) : Bool := n != c.maxPacketLength

/-- Change detection of channel selection (spec/43_radio_commands.md R77). -/
def channelChanged (channel : Byte) (c : RadioConfiguration) : Bool := channel != c.channel

end Sys2Proof.Machine
end

