-- ==== Sys2Proof/Machine/Flags.lean ====
section
/-! DEFINITION. The flag `receivedFlag`, the bit `listening`, and what is computed from them: the state view
(spec/10_state.md R26) and the return value of `receive` (spec/43_radio_commands.md R78). -/
namespace Sys2Proof.Machine

/-- `receivedFlag <- v` (spec/10_state.md R25). -/
def writeReceivedFlag (v : Bool) (s : State) : State := { s with receivedFlag := v }

/-- `listening <- v` (spec/10_state.md R26). -/
def writeListening (v : Bool) (s : State) : State := { s with listening := v }

/-- The state view (spec/10_state.md R26). -/
def State.view (s : State) : View :=
  if s.receivedFlag then .packetReady else if s.listening then .listening else .idle

/-- `receivedFlag ? zext_16(length) : 0` (spec/43_radio_commands.md R78). -/
def receivedLength (s : State) : Half := if s.receivedFlag then lengthValue s.length else 0

end Sys2Proof.Machine
end

