-- ==== Sys2Proof/Machine/Ops.lean ====
section
/-! DEFINITION. The named operations every meaning is built from: register writes, the Packet Buffer, the transceiver
interface, the shared routines Recompute, SelectChannel and InternalReceive, the response, and fetching a command.

There is no operation that takes an exception and none that returns from one: CORE has neither (spec/60_exceptions.md R84,
R90; log entry 19). -/
namespace Sys2Proof.Machine

/-- What executing an instruction, or a step, ends in. -/
abbrev Result := Host.Outcome State Fault Refusal

/-! ### Register writes -/

/-- `cfg.syncword0 <- sw0; cfg.syncword3 <- sw3` (spec/10_state.md R17, R18). -/
def writeSyncwords (sw0 sw3 : Half) (s : State) : State :=
  { s with cfg := { s.cfg with syncword0 := sw0, syncword3 := sw3 } }

/-- `cfg.maxPacketLength <- n` (spec/10_state.md R20). -/
def writeMaxPacketLength (n : Byte) (s : State) : State :=
  { s with cfg := { s.cfg with maxPacketLength := n } }

/-- `cfg.crcEnabled <- v` (spec/10_state.md R21). -/
def writeCrcEnabled (v : Bool) (s : State) : State := { s with cfg := { s.cfg with crcEnabled := v } }

/-- `cfg.channel <- channel` (spec/10_state.md R22). -/
def writeChannel (channel : Byte) (s : State) : State :=
  { s with cfg := { s.cfg with channel := channel } }

/-- Every register of the configuration to its reset value (spec/41_config_commands.md R61). -/
def resetConfiguration (s : State) : State := { s with cfg := RadioConfiguration.reset s.params }

/-! ### The Packet Buffer -/

/-- `MemRead(0, n)`: the first `n` bytes of the buffer (spec/20_memory.md R28 b). -/
def memRead (n : Nat) (s : State) : List Byte := s.buf.take n

/-- `MemWrite(0, n, v)`: the buffer's whole contents become `v` (spec/20_memory.md R28 a). -/
def memWrite (v : List Byte) (s : State) : State := { s with buf := v }

/-- `BufWrite(data)` (spec/42_buffer_commands.md R70): how many bytes were taken, and the state after. -/
def bufWrite (data : List Byte) (s : State) : Nat × State :=
  let w := clampWrite data.length s.params.cap
  (w, writeReceivedFlag false (memWrite (data.take w) s))

/-- What `BufRead` answers: the bytes, the remaining length, the state after. -/
structure BufReadResult where
  out : List Byte
  remaining : Nat
  state : State
deriving DecidableEq, Repr

/-- `BufRead(maxLength)` (spec/42_buffer_commands.md R71). -/
def bufRead (maxLength : Nat) (s : State) : BufReadResult :=
  let n := clampRead maxLength s.length
  let s' := memWrite (s.buf.drop n) s
  ⟨memRead n s, s'.length, s'⟩

/-! ### The transceiver interface -/

/-- `TCall`: the call is appended to the call trace (spec/00_scope.md R14, 20_memory.md R37 d). -/
def emit (c : TCall) (s : State) : State := { s with trace := s.trace ++ [c] }

/-- Several calls, in this order. -/
def emitAll (cs : List TCall) (s : State) : State := { s with trace := s.trace ++ cs }

/-- The number of a call in traces (spec/30_encoding.md R45). -/
def TCall.code : TCall → Nat
  | .begin => 0
  | .setAutoAck _ => 1
  | .setPowerLevel _ => 2
  | .setDataRate _ => 3
  | .disableHardwareCRC => 4
  | .setAddressWidth _ => 5
  | .setPayloadSize _ => 6
  | .openWritingPipe _ => 7
  | .openReadingPipe _ _ => 8
  | .setChannel _ => 9
  | .startListening => 10
  | .stopListening => 11
  | .isDataAvailable => 12
  | .readBytes _ => 13
  | .writeBytes _ _ => 14

/-- The transceiver's next answer to `isDataAvailable`: the given one, else a free value (spec/20_memory.md R36). -/
def Answers.nextAvailable (a : Answers) : Bool × Answers :=
  match a.available with
  | b :: bs => (b, { a with available := bs })
  | [] => (Config.freeAvailable a.drawn, { a with drawn := a.drawn + 1 })

/-- The transceiver's next byte of `readBytes`: the given one, else a free value (spec/20_memory.md R36). -/
def Answers.nextByte (a : Answers) : Byte × Answers :=
  match a.bytes with
  | x :: xs => (x, { a with bytes := xs })
  | [] => (Config.freeByte a.drawn, { a with drawn := a.drawn + 1 })

/-- The transceiver's answer to `readBytes` of `n` bytes: exactly `n` bytes (spec/20_memory.md R36, D25). -/
def Answers.nextBytes : Nat → Answers → List Byte × Answers
  | 0, a => ([], a)
  | n + 1, a => (a.nextByte.1 :: (Answers.nextBytes n a.nextByte.2).1, (Answers.nextBytes n a.nextByte.2).2)

/-- What has been answered is consumed. -/
def writeAnswers (a : Answers) (s : State) : State := { s with answers := a }

/-- `TCall(isDataAvailable)` with its answer (spec/43_radio_commands.md R78): sampled once. -/
def askAvailable (s : State) : Bool × State :=
  (s.answers.nextAvailable.1, writeAnswers s.answers.nextAvailable.2 (emit .isDataAvailable s))

/-- `TCall(readBytes, n)` with its answer (spec/43_radio_commands.md R79). -/
def askBytes (n : PayloadSize) (s : State) : List Byte × State :=
  ((s.answers.nextBytes n.toNat).1, writeAnswers (s.answers.nextBytes n.toNat).2 (emit (.readBytes n) s))

/-! ### Shared routines -/

/-- The calls `open` makes before Recompute, T0 to T5 (spec/41_config_commands.md R61, D12). -/
def openCalls (c : RadioConfiguration) : List TCall :=
  [.begin, .setAutoAck false, .setPowerLevel .powerMax, .setDataRate .rateHigh, .disableHardwareCRC,
   .setAddressWidth c.syncwordLength]

/-- The three calls of Recompute, T6 to T8 (spec/41_config_commands.md R62). -/
def recomputeCalls (p : Params) (c : RadioConfiguration) : List TCall :=
  [.setPayloadSize c.payloadSize, .openWritingPipe c.address, .openReadingPipe p.rxPipeIndex c.address]

/-- `Recompute()` (spec/41_config_commands.md R62): it writes no register. -/
def recompute (s : State) : State := emitAll (recomputeCalls s.params s.cfg) s

/-- `if changed: Recompute()` (spec/41_config_commands.md R63, R64). -/
def recomputeIf (changed : Bool) (s : State) : State := if changed then recompute s else s

/-- `SelectChannel(channel)` (spec/43_radio_commands.md R77). -/
def selectChannel (channel : Byte) (s : State) : State :=
  if channelChanged channel s.cfg then emit (.setChannel channel) (writeChannel channel s) else s

/-- An accepted frame enters the buffer through `BufWrite`, then the flag is set (spec/43_radio_commands.md R79, D21). -/
def acceptPacket (payload : List Byte) (s : State) : State :=
  writeReceivedFlag true (bufWrite payload s).2

/-- `InternalReceive()` (spec/43_radio_commands.md R79). -/
def internalReceive (s : State) : State :=
  match frameDecode (askBytes s.cfg.payloadSize s).1 s.cfg.crcEnabled with
  | some payload => acceptPacket payload (askBytes s.cfg.payloadSize s).2
  | none => (askBytes s.cfg.payloadSize s).2

/-- `if TCall(isDataAvailable): InternalReceive()` (spec/43_radio_commands.md R78). -/
def pollOnce (s : State) : State :=
  if (askAvailable s).1 then internalReceive (askAvailable s).2 else (askAvailable s).2

/-! ### Responses -/

/-- The response `STATUS_OK` (spec/30_encoding.md R42, D13). -/
def statusOk : Response := ⟨statusOkValue, 0, []⟩

/-- The response of an operation that returns a length and no data (spec/30_encoding.md R42). -/
def lengthResponse (ret : Half) : Response := ⟨ret, 0, []⟩

/-- The response of `readFIFO` (spec/42_buffer_commands.md R73). -/
def readResponse (remaining : Nat) (out : List Byte) : Response :=
  ⟨lengthValue remaining, lengthValue out.length, out⟩

/-- The operation ends with its one response (spec/30_encoding.md R42). -/
def respond (r : Response) (s : State) : Result := .next { s with responses := s.responses ++ [r] }

/-! ### Fetching a command -/

/-- What stands on the command port. -/
def writeCommands (items : List PortItem) (s : State) : State := { s with commands := items }

/-- The next operation of the command port (spec/10_state.md R24, 30_encoding.md R40). -/
def fetch (s : State) : Decoded := decode s.commands

end Sys2Proof.Machine
end

