-- ==== Sys2Proof/Machine/Buffer.lean ====
section
/-! DEFINITION. The Packet Buffer operations (spec/42_buffer_commands.md): writeFIFO, readFIFO. -/
namespace Sys2Proof.Machine

/-- `writeFIFO(data, length)` (R72): returns the bytes accepted. A well-formed one has `length` data bytes (log entry 24). -/
def execWriteFIFO (_length : Half) (data : List Byte) (s : State) : Result :=
  respond (lengthResponse (lengthValue (bufWrite data s).1)) (bufWrite data s).2

/-- `readFIFO(maxLength)` (R73): returns the remaining length, the count and the bytes. -/
def execReadFIFO (maxLength : Half) (s : State) : Result :=
  respond (readResponse (bufRead (lengthOperand maxLength) s).remaining (bufRead (lengthOperand maxLength) s).out)
    (bufRead (lengthOperand maxLength) s).state

end Sys2Proof.Machine
end

