-- ==== Sys2Proof/Machine/Configure.lean ====
section
/-! DEFINITION. The configuration operations (spec/41_config_commands.md): open, setSyncword, setMaxPacketLength, setCRC,
setPreambleLength, setTrailerLength. -/
namespace Sys2Proof.Machine

/-- Every register to the reset state, as `open` does first (R61, 70_reset_and_hazards.md R99). -/
def reinitialise (s : State) : State :=
  writeListening false (writeReceivedFlag false (memWrite [] (resetConfiguration s)))

/-- `open()` (R61). -/
def execOpen (s : State) : Result :=
  respond statusOk (recompute (emitAll (openCalls (reinitialise s).cfg) (reinitialise s)))

/-- `setSyncword(sw0, sw3)` (R63). -/
def execSetSyncword (sw0 sw3 : Half) (s : State) : Result :=
  respond statusOk (recomputeIf (syncwordChanged sw0 sw3 s.cfg) (writeSyncwords sw0 sw3 s))

/-- `setMaxPacketLength(n)` (R64). -/
def execSetMaxPacketLength (n : Byte) (s : State) : Result :=
  respond statusOk (recomputeIf (maxPacketLengthChanged n s.cfg) (writeMaxPacketLength n s))

/-- `setCRC(enabled)` (R65). -/
def execSetCRC (enabled : Bool) (s : State) : Result := respond statusOk (writeCrcEnabled enabled s)

/-- `setPreambleLength(n)` (R67): the operand is read and ignored. -/
def execSetPreambleLength (_n : Byte) (s : State) : Result := respond statusOk s

/-- `setTrailerLength(n)` (R68): the operand is read and ignored. -/
def execSetTrailerLength (_n : Byte) (s : State) : Result := respond statusOk s

end Sys2Proof.Machine
end

