-- ==== Sys2Proof/Machine/Radio.lean ====
section
/-! DEFINITION. The radio operations (spec/43_radio_commands.md): receive, transmit. -/
namespace Sys2Proof.Machine

/-- `receive` up to its response (R78): channel, listen, poll once. -/
def receiveBody (channel : Byte) (s : State) : State :=
  pollOnce (writeListening true (emit .startListening (selectChannel channel s)))

/-- `receive(channel)` (R78): the return value is computed from the state at the end, on every path. -/
def execReceive (channel : Byte) (s : State) : Result :=
  respond (lengthResponse (receivedLength (receiveBody channel s))) (receiveBody channel s)

/-- The writes of one framed packet (R80): the frame is built once and written `TX_REPEAT` times. -/
def transmitCalls (s : State) : List TCall :=
  List.replicate txRepeat (.writeBytes (frameEncode (memRead s.length s)) (s.length + crcBytes))

/-- `transmit` up to its response (R80). -/
def transmitBody (channel : Byte) (s : State) : State :=
  let s' := selectChannel channel (writeListening false (emit .stopListening s))
  emitAll (transmitCalls s') s'

/-- `transmit(channel)` (R80): always succeeds; the buffer is not consumed and `cfg.crcEnabled` is not read. -/
def execTransmit (channel : Byte) (s : State) : Result := respond statusOk (transmitBody channel s)

end Sys2Proof.Machine
end

