-- ==== Sys2Proof/Machine/Dispatch.lean ====
section
/-! DEFINITION. One arm per instruction, one meaning per arm. -/
namespace Sys2Proof.Machine

def exec (i : Instr) (s : State) : Host.Outcome State Fault Refusal :=
  match i with
  | .openRadio => Sys2Proof.Machine.execOpen s
  | .setSyncword sw0 sw3 => Sys2Proof.Machine.execSetSyncword sw0 sw3 s
  | .setMaxPacketLength n => Sys2Proof.Machine.execSetMaxPacketLength n s
  | .setCRC enabled => Sys2Proof.Machine.execSetCRC enabled s
  | .receive channel => Sys2Proof.Machine.execReceive channel s
  | .readFIFO maxLength => Sys2Proof.Machine.execReadFIFO maxLength s
  | .writeFIFO length data => Sys2Proof.Machine.execWriteFIFO length data s
  | .transmit channel => Sys2Proof.Machine.execTransmit channel s
  | .setPreambleLength n => Sys2Proof.Machine.execSetPreambleLength n s
  | .setTrailerLength n => Sys2Proof.Machine.execSetTrailerLength n s

end Sys2Proof.Machine
end

