-- ==== Sys2Proof/Machine/Step.lean ====
section
/-! DEFINITION. One step of CORE: the complete execution of the next operation of the command port (spec/00_scope.md R8). -/
namespace Sys2Proof.Machine

/-- Take the next operation from the command port and execute it; CORE takes no step for an invalid command
(spec/30_encoding.md R44 c). -/
def step (s : State) : Host.Outcome State Fault Refusal :=
  match fetch s with
  | .instr i rest => exec i (writeCommands rest s)
  | .invalid why => .refused (.invalidCommand why)

/-- `s` with the instruction whose bits are `w` presented as the next command (log entry 18). -/
def State.withFetchWord (s : State) (nbits w : Nat) : State := writeCommands (tableItems nbits w ++ s.commands) s

end Sys2Proof.Machine
end

