-- ==== Sys2Proof/Safety.lean ====
section
/-! DEFINITION. What counts as a good state, what the call trace says has been commanded, and which runs carry over to the
original software: the terms claims are stated in. -/
namespace Sys2Proof.Machine

/-! ### The invariant of the machine -/

/-- What every call CORE emits satisfies, for parameters `p` (spec/30_encoding.md R45, R46, R48, 20_memory.md R34 a). -/
def TCall.Sound (p : Params) : TCall → Prop
  | .begin => True
  | .setAutoAck on => on = false
  | .setPowerLevel _ => True
  | .setDataRate _ => True
  | .disableHardwareCRC => True
  | .setAddressWidth n => n = 5
  | .setPayloadSize n => 2 ≤ n.toNat ∧ n.toNat ≤ 257
  | .openWritingPipe a => ∃ s0 s3, a = deriveAddress s0 s3
  | .openReadingPipe i a => i = p.rxPipeIndex ∧ ∃ s0 s3, a = deriveAddress s0 s3
  | .setChannel _ => True
  | .startListening => True
  | .stopListening => True
  | .isDataAvailable => True
  | .readBytes n => 2 ≤ n.toNat ∧ n.toNat ≤ 257
  | .writeBytes f n => f.length = n ∧ 2 ≤ n ∧ n ≤ p.cap + 2 ∧ crc16 (f.map reverse) = 0

/-- What every response satisfies (spec/30_encoding.md R42, 42_buffer_commands.md R73): `count` bytes of data, and no
more bytes and remaining length together than the buffer can hold. -/
def Response.Sound (p : Params) (r : Response) : Prop :=
  r.count.toNat = r.data.length ∧ r.count.toNat + r.ret.toNat ≤ p.cap

/-- The invariant: legal parameters, the buffer within its capacity (10_state.md R23), and only sound calls and responses. -/
structure State.Inv (s : State) : Prop where
  params : s.params.Wf
  buf : s.buf.wf s.params.cap = true
  trace : ∀ c ∈ s.trace, c.Sound s.params
  responses : ∀ r ∈ s.responses, r.Sound s.params

/-! ### What the call trace says has been commanded -/

/-- What CORE has commanded of the transceiver: payload size and pipe addresses since reset, channel and listen mode since
the last `open` (spec/10_state.md R26, R27, 43_radio_commands.md R77). -/
structure Commanded where
  payload : Option PayloadSize
  writePipe : Option Address
  readPipe : Option Address
  channel : Option Byte
  listening : Bool
deriving DecidableEq, Repr

/-- Nothing commanded yet. -/
def Commanded.nothing : Commanded := ⟨none, none, none, none, false⟩

/-- What one more call commands. -/
def Commanded.after (m : Commanded) : TCall → Commanded
  | .begin => { m with channel := none, listening := false }
  | .setPayloadSize n => { m with payload := some n }
  | .openWritingPipe a => { m with writePipe := some a }
  | .openReadingPipe _ a => { m with readPipe := some a }
  | .setChannel n => { m with channel := some n }
  | .startListening => { m with listening := true }
  | .stopListening => { m with listening := false }
  | .setAutoAck _ => m
  | .setPowerLevel _ => m
  | .setDataRate _ => m
  | .disableHardwareCRC => m
  | .setAddressWidth _ => m
  | .isDataAvailable => m
  | .readBytes _ => m
  | .writeBytes _ _ => m

/-- What a call trace has commanded. -/
def commanded (trace : List TCall) : Commanded := trace.foldl Commanded.after Commanded.nothing

/-- The registers agree with what the trace has commanded (spec/10_state.md R22, R26, R27 a, b): whatever payload size and
addresses have been programmed are those of the present configuration; the channel register is the last channel
programmed since `open`, or `RESET_CHANNEL`; `listening` is the listen mode last commanded since `open`. -/
structure State.Mirrors (s : State) : Prop where
  payload : ∀ n, (commanded s.trace).payload = some n → n = s.cfg.payloadSize
  writePipe : ∀ a, (commanded s.trace).writePipe = some a → a = s.cfg.address
  readPipe : ∀ a, (commanded s.trace).readPipe = some a → a = s.cfg.address
  channel : s.cfg.channel = (commanded s.trace).channel.getD s.params.resetChannel
  listening : s.listening = (commanded s.trace).listening

/-! ### Runs -/

/-- `t` comes from `s` by some number of steps. -/
inductive Reaches : State → State → Prop where
  | refl (s : State) : Reaches s s
  | next {s t u : State} : Reaches s t → step t = .next u → Reaches s u

/-- The host presents more commands and the transceiver gives more answers: what the outside may do between steps
(spec/00_scope.md R7). -/
def State.present (items : List PortItem) (available : List Bool) (bytes : List Byte) (s : State) : State :=
  { s with commands := s.commands ++ items, answers := { s.answers with available := s.answers.available ++ available, bytes := s.answers.bytes ++ bytes } }

/-! ### What claims may have to exclude -/

/-- `receive` and `transmit` need no more scratch than the buffer holds: claims meant for the original software refuse other
runs (spec/93_implementation_defined.md U5). -/
def State.FitsScratch (s : State) : Prop :=
  s.cfg.maxPacketLength.toNat + 2 ≤ s.params.cap ∧ s.length + 2 ≤ s.params.cap

/-- The frame `transmit` would send has the payload size programmed (spec/93_implementation_defined.md U6). -/
def State.FitsPayload (s : State) : Prop := s.length = s.cfg.maxPacketLength.toNat

/-- The run's first operation was `open` (spec/93_implementation_defined.md U7, 70_reset_and_hazards.md R101). -/
def State.Booted (s : State) : Prop := s.trace.head? = some .begin

/-! ### The circumstances of `receive` and the operand bits -/

/-- The transceiver will report data on the next poll. -/
def State.dataComing (s : State) : Bool := s.answers.nextAvailable.1

/-- The raw frame the transceiver will then yield: `maxPacketLength + 2` bytes (spec/43_radio_commands.md R79). -/
def State.frameComing (s : State) : List Byte :=
  (s.answers.nextAvailable.2.nextBytes s.cfg.payloadSize.toNat).1

/-- The transceiver's answers left once that frame has been read. -/
def State.answersAfterFrame (s : State) : Answers :=
  (s.answers.nextAvailable.2.nextBytes s.cfg.payloadSize.toNat).2

/-- A `receive` now would accept a frame (spec/43_radio_commands.md R81, "frame accepted"). -/
def State.acceptsFrame (s : State) : Bool :=
  s.dataComing && (frameDecode s.frameComing s.cfg.crcEnabled).isSome

/-- `t` comes from `s` by operations none of which accepts a frame (spec/70_reset_and_hazards.md R102). Between operations the
command and answer ports may come to hold anything: they are the host's and the transceiver's (00_scope.md R7). -/
inductive RunsWithoutAccepting : State → State → Prop where
  | refl (s : State) : RunsWithoutAccepting s s
  | operation {s t u : State} (i : Instr) : RunsWithoutAccepting s t → (∀ c, i = .receive c → t.acceptsFrame = false) →
      exec i t = .next u → RunsWithoutAccepting s u
  | ports {s t : State} (items : List PortItem) (a : Answers) : RunsWithoutAccepting s t →
      RunsWithoutAccepting s { t with commands := items, answers := a }

/-- The bits of the command word an opcode's operands are taken from, with the opcode's own (spec/30_encoding.md R41). -/
def namedBits (op : Byte) : CommandWord :=
  match op.toNat with
  | 1 => 0xFFFFFFFFFF
  | 2 => 0xFF000000FF
  | 3 => 0xFF00000001
  | 4 => 0xFF000000FF
  | 5 => 0xFF0000FFFF
  | 6 => 0xFF0000FFFF
  | 7 => 0xFF000000FF
  | 8 => 0xFF000000FF
  | 9 => 0xFF000000FF
  | _ => 0xFF00000000

/-! ### Registers and runs of reads -/

/-- The registers of spec/10_state.md R16 that CORE writes. -/
structure Registers where
  cfg : RadioConfiguration
  buf : Memory
  receivedFlag : Bool
  listening : Bool
deriving DecidableEq, Repr

/-- The registers of a state. -/
def State.registers (s : State) : Registers := ⟨s.cfg, s.buf, s.receivedFlag, s.listening⟩

/-- The state after `readFIFO` operations with these requested lengths, one after another (spec/42_buffer_commands.md R74 c). -/
def State.afterReads : List Half → State → Option State
  | [], s => some s
  | n :: ns, s =>
    match exec (.readFIFO n) s with
    | .next t => t.afterReads ns
    | .fault _ => none
    | .refused _ => none

/-- Payload size and both pipes are programmed and agree with the configuration (spec/41_config_commands.md R62). -/
structure State.Programmed (s : State) : Prop where
  payload : (commanded s.trace).payload = some s.cfg.payloadSize
  writePipe : (commanded s.trace).writePipe = some s.cfg.address
  readPipe : (commanded s.trace).readPipe = some s.cfg.address

end Sys2Proof.Machine
end

