-- ==== Sys2Proof/Certificates/Slice0/Obligations.lean ====
section
/-! DEFINITION. The statements for the provers. Where a docstring names a decision D<n> or a conflict C<n>, the clause follows
what spec/92_eei_decisions.md or spec/90_conflicts.md chose, and the statement's basis is 'derived'. -/

open Sys2Proof Sys2Proof.Machine

/-! ### The pure units -/

/-- 40_functions.md, Bit Reverser: bit `i` of `reverse x` is bit `7-i` of `x`; an involution; it distributes over `&`, `|`, `^`
(the spec marks this law as its own inference); its fixed points are the sixteen palindromic bytes. -/
def Obligations.ReverseExchangesBitsEndToEnd : Prop :=
  ∀ x y : Byte,
    (∀ i, i < 8 → (reverse x).getLsbD i = x.getLsbD (7 - i)) ∧
    reverse (reverse x) = x ∧
    reverse (x &&& y) = reverse x &&& reverse y ∧
    reverse (x ||| y) = reverse x ||| reverse y ∧
    reverse (x ^^^ y) = reverse x ^^^ reverse y ∧
    (reverse x = x ↔ x ∈ ([0x00, 0x18, 0x24, 0x3C, 0x42, 0x5A, 0x66, 0x7E,
                           0x81, 0x99, 0xA5, 0xBD, 0xC3, 0xDB, 0xE7, 0xFF] : List Byte)) ∧
    reverse 0xDE = 0x7B

/-- 40_functions.md R52: one bit step, the logical shift, and the rule's six corner cases. -/
def Obligations.CrcBitShiftsAndConditionallyXors : Prop :=
  (∀ (state : Half) (d : Bool),
    ((d ^^ state.getLsbD 0) = true → crcBit state d = (state >>> 1) ^^^ 0x8408) ∧
    ((d ^^ state.getLsbD 0) = false → crcBit state d = state >>> 1) ∧
    (state >>> 1).getLsbD 15 = false) ∧
  crcBit 0x0000 false = 0x0000 ∧ crcBit 0x0000 true = 0x8408 ∧ crcBit 0x0001 true = 0x0000 ∧
  crcBit 0x0001 false = 0x8408 ∧ crcBit 0xFFFF true = 0x7FFF ∧ crcBit 0xFFFF false = 0xFBF7

/-- 40_functions.md R53: the eight bits of the byte, least significant first, with the worked example's eight states. -/
def Obligations.CrcByteFeedsBitsLeastSignificantFirst : Prop :=
  (∀ (state : Half) (x : Byte), crcByte state x =
    crcBit (crcBit (crcBit (crcBit (crcBit (crcBit (crcBit (crcBit state (x.getLsbD 0)) (x.getLsbD 1)) (x.getLsbD 2))
      (x.getLsbD 3)) (x.getLsbD 4)) (x.getLsbD 5)) (x.getLsbD 6)) (x.getLsbD 7)) ∧
  crcByte 0x0000 0x00 = 0x0000 ∧
  (List.range 8).map (fun k => (List.range (k + 1)).foldl (fun s i => crcBit s ((0x01 : Byte).getLsbD i)) 0x0000) =
    [0x8408, 0x4204, 0x2102, 0x1081, 0x8C48, 0x4624, 0x2312, 0x1189] ∧
  crcByte 0x0000 0x01 = 0x1189

/-- 40_functions.md, CRC Engine: the state starts at 0, one byte step for each byte in order, no final XOR; so zeros, leading
zeros among them, never disturb it. -/
def Obligations.CrcStartsAtZeroAndSkipsLeadingZeros : Prop :=
  crc16 [] = 0x0000 ∧
  (∀ (d : List Byte) (x : Byte), crc16 (d ++ [x]) = crcByte (crc16 d) x) ∧
  (∀ (n : Nat) (d : List Byte), crc16 (List.replicate n 0x00 ++ d) = crc16 d) ∧
  (∀ n : Nat, crc16 (List.replicate n 0x00) = 0x0000)

/-- 40_functions.md, CRC Engine: the CRC is linear over XOR for inputs of equal length. -/
def Obligations.CrcIsLinearOverXor : Prop :=
  ∀ a b : List Byte, a.length = b.length →
    crc16 (List.zipWith (fun x y => x ^^^ y) a b) = crc16 a ^^^ crc16 b

/-- 40_functions.md, CRC Engine, residue law: a sequence followed by its own CRC, low byte first, has CRC 0. -/
def Obligations.CrcResidueOfSequenceWithItsTrailerIsZero : Prop :=
  ∀ d : List Byte, crc16 (d ++ [(crc16 d).extractLsb' 0 8, (crc16 d).extractLsb' 8 8]) = 0x0000

/-- 40_functions.md, CRC Engine, and 93_implementation_defined.md U13: inverting any one bit changes the CRC. -/
def Obligations.CrcDetectsEverySingleBitFlip : Prop :=
  ∀ (d : List Byte) (k b : Nat) (h : k < d.length), b < 8 →
    crc16 (d.set k (d[k] ^^^ (1#8 <<< b))) ≠ crc16 d

/-- 30_encoding.md, The pipe address: the five packed bytes nibble by nibble, each bit-reversed; the discriminator bit next to
a syncword is the complement of the syncword bit it adjoins; the worked example. -/
def Obligations.AddressBytesHaveTheNibbleLayout : Prop :=
  (∀ (s0 s3 : Half) (i : Nat), i < 8 →
    let p0 : Byte := (if s3.getLsbD 15 then (0xA : BitVec 4) else 0x5) ++ s3.extractLsb' 12 4
    let p1 : Byte := s3.extractLsb' 8 4 ++ s3.extractLsb' 4 4
    let p2 : Byte := s3.extractLsb' 0 4 ++ s0.extractLsb' 12 4
    let p3 : Byte := s0.extractLsb' 8 4 ++ s0.extractLsb' 4 4
    let p4 : Byte := s0.extractLsb' 0 4 ++ (if s0.getLsbD 0 then (0x5 : BitVec 4) else 0xA)
    (deriveAddress s0 s3).b0.getLsbD i = p0.getLsbD (7 - i) ∧
    (deriveAddress s0 s3).b1.getLsbD i = p1.getLsbD (7 - i) ∧
    (deriveAddress s0 s3).b2.getLsbD i = p2.getLsbD (7 - i) ∧
    (deriveAddress s0 s3).b3.getLsbD i = p3.getLsbD (7 - i) ∧
    (deriveAddress s0 s3).b4.getLsbD i = p4.getLsbD (7 - i) ∧
    p0.getLsbD 4 = !s3.getLsbD 15 ∧ p4.getLsbD 3 = !s0.getLsbD 0) ∧
  deriveAddress 0x1234 0xABCD = ⟨0x55, 0x3D, 0x8B, 0xC4, 0x52⟩ ∧
  deriveAddress 0x0000 0x0000 = ⟨0x0A, 0x00, 0x00, 0x00, 0x50⟩

/-- 40_functions.md, Address Mapper: different syncword pairs never give the same address. -/
def Obligations.DistinctSyncwordsGiveDistinctAddresses : Prop :=
  ∀ s0 s3 t0 t3 : Half, deriveAddress s0 s3 = deriveAddress t0 t3 → s0 = t0 ∧ s3 = t3

/-- 40_functions.md R56: the CRC over the unreversed bytes, trailer low byte first, every byte reversed, two bytes longer;
zeros encode to zeros; the worked example. (The function has no access to `cfg.crcEnabled`.) -/
def Obligations.FrameEncodeAppendsTheCrcAndReverses : Prop :=
  (∀ p : List Byte,
    frameEncode p = (p ++ [(crc16 p).extractLsb' 0 8, (crc16 p).extractLsb' 8 8]).map reverse ∧
    (frameEncode p).length = p.length + 2) ∧
  frameEncode [] = [0x00, 0x00] ∧
  (∀ n : Nat, frameEncode (List.replicate n 0x00) = List.replicate (n + 2) 0x00) ∧
  frameEncode [0xDE, 0xAD, 0xBE, 0xEF] = [0x7B, 0xB5, 0x7D, 0xF7, 0xA8, 0x98]

/-- 40_functions.md, Frame coding: with validation the last two of the reversed bytes must be the CRC, low byte first, of the
others, which are the payload; without validation all bytes are. -/
def Obligations.FrameDecodeChecksTheLastTwoBytes : Prop :=
  ∀ (r payload : List Byte) (lo hi : Byte), r.map reverse = payload ++ [lo, hi] →
    frameDecode r false = some (payload ++ [lo, hi]) ∧
    (lo = (crc16 payload).extractLsb' 0 8 ∧ hi = (crc16 payload).extractLsb' 8 8 →
      frameDecode r true = some payload) ∧
    (lo ≠ (crc16 payload).extractLsb' 0 8 ∨ hi ≠ (crc16 payload).extractLsb' 8 8 →
      frameDecode r true = none)

/-- 40_functions.md, Frame coding: decoding an encoded packet gives it back, with validation without its trailer and without
validation with it. -/
def Obligations.FrameDecodeUndoesFrameEncode : Prop :=
  ∀ p : List Byte,
    frameDecode (frameEncode p) true = some p ∧
    frameDecode (frameEncode p) false = some (p ++ [(crc16 p).extractLsb' 0 8, (crc16 p).extractLsb' 8 8])

/-- 40_functions.md, Frame coding: a frame that differs from an encoded one in exactly one bit, trailer bits included, is
rejected. -/
def Obligations.SingleBitErrorInAFrameIsRejected : Prop :=
  ∀ (p : List Byte) (k b : Nat) (h : k < (frameEncode p).length), b < 8 →
    frameDecode ((frameEncode p).set k ((frameEncode p)[k] ^^^ (1#8 <<< b))) true = none

/-! ### Encoding -/

/-- 30_encoding.md, The command word: decoding an encoded well-formed instruction gives it back with every operand, and leaves
what follows on the command port. -/
def Obligations.DecodeOfEncodeIsTheInstruction : Prop :=
  ∀ (i : Instr) (rest : List PortItem), WellFormed i → decode (encode i ++ rest) = .instr i rest

/-- 30_encoding.md, The command word: whatever is decoded is well formed, and took from the port exactly one command word of
its opcode and its own data bytes. -/
def Obligations.DecodedInstructionIsWellFormed : Prop :=
  ∀ (items rest : List PortItem) (i : Instr), decode items = .instr i rest →
    WellFormed i ∧ ∃ w : CommandWord, items = .word w :: ((dataBytes i).map .data ++ rest) ∧
      w.extractLsb' 32 8 = opcode i

/-- 30_encoding.md, The command word (D2, D6): bits the operand table does not name change nothing. -/
def Obligations.UnnamedOperandBitsAreIgnored : Prop :=
  ∀ (w w' : CommandWord) (rest : List PortItem),
    w &&& namedBits (w.extractLsb' 32 8) = w' &&& namedBits (w.extractLsb' 32 8) →
    decode (.word w :: rest) = decode (.word w' :: rest)

/-- 95_test_vectors.md V2.9: the command words of that table, all 22 rows in its order, decode as listed. -/
def Obligations.WordsOfTheSpecDecodeAsListed : Prop :=
  decode [.word 0x0000000000] = .instr .openRadio [] ∧
  decode [.word 0x00FFFFFFFF] = .instr .openRadio [] ∧
  decode [.word 0x011234ABCD] = .instr (.setSyncword 0x1234 0xABCD) [] ∧
  decode [.word 0x0200000004] = .instr (.setMaxPacketLength 0x04) [] ∧
  decode [.word 0x02FFFFFF04] = .instr (.setMaxPacketLength 0x04) [] ∧
  decode [.word 0x0300000001] = .instr (.setCRC true) [] ∧
  decode [.word 0x0300000000] = .instr (.setCRC false) [] ∧
  decode [.word 0x0300000002] = .instr (.setCRC false) [] ∧
  decode [.word 0x030000FFFF] = .instr (.setCRC true) [] ∧
  decode [.word 0x0400000007] = .instr (.receive 0x07) [] ∧
  decode [.word 0x0400000107] = .instr (.receive 0x07) [] ∧
  decode [.word 0x0500000010] = .instr (.readFIFO 16) [] ∧
  decode [.word 0x050000FFFF] = .instr (.readFIFO 0xFFFF) [] ∧
  decode [.word 0x0600000003, .data 0x11, .data 0x22, .data 0x33] = .instr (.writeFIFO 3 [0x11, 0x22, 0x33]) [] ∧
  decode [.word 0x0600000000] = .instr (.writeFIFO 0 []) [] ∧
  decode [.word 0x0600000003, .data 0x11, .data 0x22] = .invalid (.shortData 3) ∧
  decode [.word 0x0700000000] = .instr (.transmit 0x00) [] ∧
  decode [.word 0x0800000003] = .instr (.setPreambleLength 0x03) [] ∧
  decode [.word 0x0900000004] = .instr (.setTrailerLength 0x04) [] ∧
  decode [.word 0x0A00000000] = .invalid (.reservedOpcode 0x0A) ∧
  decode [.word 0xFF00000000] = .invalid (.reservedOpcode 0xFF) ∧
  decode [.word 0x1000000000] = .invalid (.reservedOpcode 0x10)

/-- 30_encoding.md section 2 and 60_exceptions.md section 5 (D5): no step is taken for a reserved opcode. -/
def Obligations.ReservedOpcodeIsRefused : Prop :=
  ∀ (s : State) (w : CommandWord) (rest : List PortItem), s.commands = .word w :: rest →
    (0x0A : Byte) ≤ w.extractLsb' 32 8 → step s = .refused (.invalidCommand (.reservedOpcode (w.extractLsb' 32 8)))

/-- 30_encoding.md section 2 (D5): no step is taken for a `writeFIFO` word followed by fewer data bytes than its length, be it
that the port ends there or that the next word follows. -/
def Obligations.WriteWithTooFewDataBytesIsRefused : Prop :=
  ∀ (s : State) (w : CommandWord) (data : List Byte) (rest : List PortItem),
    w.extractLsb' 32 8 = (0x06 : Byte) → data.length < (w.extractLsb' 0 16).toNat →
    (rest = [] ∨ ∃ w' rest', rest = .word w' :: rest') →
    s.commands = .word w :: (data.map .data ++ rest) →
    step s = .refused (.invalidCommand (.shortData (w.extractLsb' 0 16)))

/-- 00_scope.md section 3: when the command port's front decodes to an instruction, or is the encoding of a well-formed one,
the step is that instruction's execution with exactly its items taken from the port. -/
def Obligations.StepRunsTheDecodedInstruction : Prop :=
  (∀ (s : State) (i : Instr) (rest : List PortItem), decode s.commands = .instr i rest →
    step s = exec i { s with commands := rest }) ∧
  (∀ (s : State) (i : Instr) (rest : List PortItem), WellFormed i → s.commands = encode i ++ rest →
    step s = exec i { s with commands := rest })

/-! ### Reset -/

/-- 70_reset_and_hazards.md, Reset: every register of `ResetState` for every instance, and `State.reset` is that of Config's.
The five `RESET_*` values are the spec's open parameters, and the empty ports are the model's choice (log entries 3, 6, 9, 12). -/
def Obligations.ResetStateHoldsTheResetValues : Prop :=
  (∀ p : Params,
    (State.resetOf p).cfg.syncword0 = p.resetSyncword0 ∧ (State.resetOf p).cfg.syncword3 = p.resetSyncword3 ∧
    (State.resetOf p).cfg.syncwordLength = 5 ∧ (State.resetOf p).cfg.maxPacketLength = p.resetMaxLen ∧
    (State.resetOf p).cfg.crcEnabled = p.resetCrc ∧ (State.resetOf p).cfg.channel = p.resetChannel ∧
    (State.resetOf p).buf = [] ∧ (State.resetOf p).length = 0 ∧ (State.resetOf p).receivedFlag = false ∧
    (State.resetOf p).listening = false ∧ (State.resetOf p).view = .idle ∧ (State.resetOf p).trace = [] ∧
    (State.resetOf p).responses = [] ∧ (State.resetOf p).commands = []) ∧
  State.reset = State.resetOf Config.params

/-- The invariant holds at reset, for every legal instance and for `State.reset`. -/
def Obligations.ResetMeetsTheInvariant : Prop :=
  (∀ p : Params, p.Wf → (State.resetOf p).Inv) ∧ State.reset.Inv

/-- The registers mirror the (empty) call trace at reset. -/
def Obligations.ResetMirrorsTheCallTrace : Prop :=
  (∀ p : Params, (State.resetOf p).Mirrors) ∧ State.reset.Mirrors

/-! ### What each operation does -/

/-- 41_config_commands.md, open (D11, D12, D13): every register to the reset state, the nine calls T0 to T8, `STATUS_OK`; nothing
else changes. -/
def Obligations.OpenReinitialisesAndProgramsTheTransceiver : Prop :=
  ∀ s : State, exec .openRadio s = .next { s with
    cfg := ⟨s.params.resetSyncword0, s.params.resetSyncword3, s.params.resetMaxLen, s.params.resetCrc,
            s.params.resetChannel⟩
    buf := []
    receivedFlag := false
    listening := false
    trace := s.trace ++
      [.begin, .setAutoAck false, .setPowerLevel .powerMax, .setDataRate .rateHigh, .disableHardwareCRC,
       .setAddressWidth 5, .setPayloadSize (s.params.resetMaxLen.setWidth 9 + 2),
       .openWritingPipe (deriveAddress s.params.resetSyncword0 s.params.resetSyncword3),
       .openReadingPipe s.params.rxPipeIndex (deriveAddress s.params.resetSyncword0 s.params.resetSyncword3)]
    responses := s.responses ++ [⟨0x0000, 0, []⟩] }

/-- 41_config_commands.md, setSyncword and Recompute (D14 to D17, C4): stored always; the three calls when either half differs,
none otherwise; nothing else changes. -/
def Obligations.SetSyncwordStoresAndRecomputesWhenChanged : Prop :=
  ∀ (sw0 sw3 : Half) (s : State), exec (.setSyncword sw0 sw3) s = .next { s with
    cfg := { s.cfg with syncword0 := sw0, syncword3 := sw3 }
    trace := s.trace ++
      (if sw0 = s.cfg.syncword0 ∧ sw3 = s.cfg.syncword3 then []
       else [.setPayloadSize (s.cfg.maxPacketLength.setWidth 9 + 2), .openWritingPipe (deriveAddress sw0 sw3),
             .openReadingPipe s.params.rxPipeIndex (deriveAddress sw0 sw3)])
    responses := s.responses ++ [⟨0x0000, 0, []⟩] }

/-- 41_config_commands.md, setMaxPacketLength and Recompute (D14 to D17): stored always; the three calls when it differs, the
payload size without wrap, none otherwise; nothing else changes. -/
def Obligations.SetMaxPacketLengthStoresAndRecomputesWhenChanged : Prop :=
  ∀ (n : Byte) (s : State), exec (.setMaxPacketLength n) s = .next { s with
    cfg := { s.cfg with maxPacketLength := n }
    trace := s.trace ++
      (if n = s.cfg.maxPacketLength then []
       else [.setPayloadSize (BitVec.ofNat 9 (n.toNat + 2)),
             .openWritingPipe (deriveAddress s.cfg.syncword0 s.cfg.syncword3),
             .openReadingPipe s.params.rxPipeIndex (deriveAddress s.cfg.syncword0 s.cfg.syncword3)])
    responses := s.responses ++ [⟨0x0000, 0, []⟩] }

/-- 41_config_commands.md, setCRC (C1, D13): the operand is stored, no call, `STATUS_OK`; nothing else changes. -/
def Obligations.SetCrcStoresItsOperand : Prop :=
  ∀ (enabled : Bool) (s : State), exec (.setCRC enabled) s = .next { s with
    cfg := { s.cfg with crcEnabled := enabled }
    responses := s.responses ++ [⟨0x0000, 0, []⟩] }

/-- 41_config_commands.md, setPreambleLength and setTrailerLength (D13): for every operand a response and nothing else. -/
def Obligations.PreambleAndTrailerLengthOnlyRespond : Prop :=
  ∀ (n : Byte) (s : State),
    exec (.setPreambleLength n) s = .next { s with responses := s.responses ++ [⟨0x0000, 0, []⟩] } ∧
    exec (.setTrailerLength n) s = .next { s with responses := s.responses ++ [⟨0x0000, 0, []⟩] }

/-- 42_buffer_commands.md R70: the first `min(|data|, CAP)` bytes replace the buffer, the flag is cleared. -/
def Obligations.BufWriteReplacesTheBuffer : Prop :=
  ∀ (data : List Byte) (s : State),
    (bufWrite data s).1 = min data.length s.params.cap ∧
    (bufWrite data s).2 = { s with buf := data.take (min data.length s.params.cap), receivedFlag := false } ∧
    (bufWrite data s).2.length = min data.length s.params.cap

/-- 42_buffer_commands.md R71: up to `min(maxLength, length)` bytes from the front; the rest move to the front in order. -/
def Obligations.BufReadTakesFromTheFront : Prop :=
  ∀ (maxLength : Nat) (s : State),
    (bufRead maxLength s).out = s.buf.take (min maxLength s.buf.length) ∧
    (bufRead maxLength s).remaining = s.buf.length - min maxLength s.buf.length ∧
    (bufRead maxLength s).state = { s with buf := s.buf.drop (min maxLength s.buf.length) } ∧
    (bufRead maxLength s).out ++ (bufRead maxLength s).state.buf = s.buf

/-- 42_buffer_commands.md R72: the first `min(length, CAP)` data bytes replace the buffer, the flag is cleared, the number taken
is returned; nothing else changes. -/
def Obligations.WriteFifoReplacesTheBuffer : Prop :=
  ∀ (length : Half) (data : List Byte) (s : State), WellFormed (.writeFIFO length data) →
    exec (.writeFIFO length data) s = .next { s with
      buf := data.take (min length.toNat s.params.cap)
      receivedFlag := false
      responses := s.responses ++ [⟨BitVec.ofNat 16 (min length.toNat s.params.cap), 0, []⟩] }

/-- 42_buffer_commands.md, readFIFO (D26): bytes, count and remaining length; the flag is not cleared; nothing else changes. -/
def Obligations.ReadFifoDrainsFromTheFront : Prop :=
  ∀ (maxLength : Half) (s : State), exec (.readFIFO maxLength) s = .next { s with
    buf := s.buf.drop maxLength.toNat
    responses := s.responses ++
      [⟨BitVec.ofNat 16 (s.buf.length - maxLength.toNat), BitVec.ofNat 16 (min maxLength.toNat s.buf.length),
        s.buf.take maxLength.toNat⟩] }

/-- 43_radio_commands.md, receive (D18, D20, D24, C2, C3): with no data available only the channel, the listen mode and the
answer port move; the return value is the buffer length if the flag is set, else 0. -/
def Obligations.ReceiveWithoutDataOnlyListens : Prop :=
  ∀ (channel : Byte) (s : State), s.dataComing = false →
    exec (.receive channel) s = .next { s with
      cfg := { s.cfg with channel := channel }
      listening := true
      answers := s.answers.nextAvailable.2
      trace := s.trace ++ (if channel = s.cfg.channel then [] else [.setChannel channel]) ++
        [.startListening, .isDataAvailable]
      responses := s.responses ++ [⟨if s.receivedFlag then BitVec.ofNat 16 s.buf.length else 0, 0, []⟩] }

/-- 43_radio_commands.md, receive and internal receive (D18, D21, D24, D25): a frame whose last two bytes are the CRC of the
others enters the buffer without them, clamped to `CAP`, the flag is set and its length returned. -/
def Obligations.ReceiveStoresAFrameWithAGoodCrc : Prop :=
  ∀ (channel : Byte) (s : State) (payload : List Byte), s.dataComing = true → s.cfg.crcEnabled = true →
    s.frameComing.map reverse = payload ++ [(crc16 payload).extractLsb' 0 8, (crc16 payload).extractLsb' 8 8] →
    payload.length = s.cfg.maxPacketLength.toNat ∧
    exec (.receive channel) s = .next { s with
      cfg := { s.cfg with channel := channel }
      buf := payload.take s.params.cap
      receivedFlag := true
      listening := true
      answers := s.answersAfterFrame
      trace := s.trace ++ (if channel = s.cfg.channel then [] else [.setChannel channel]) ++
        [.startListening, .isDataAvailable, .readBytes (BitVec.ofNat 9 (s.cfg.maxPacketLength.toNat + 2))]
      responses := s.responses ++ [⟨BitVec.ofNat 16 (min s.cfg.maxPacketLength.toNat s.params.cap), 0, []⟩] }

/-- 60_exceptions.md, CRC mismatch on receive (D18, D20, D24, D25, C2): a frame that fails the CRC check is consumed and
discarded; buffer and flag are unchanged and the return value is what it would have been with no data available. -/
def Obligations.ReceiveDropsAFrameWithABadCrc : Prop :=
  ∀ (channel : Byte) (s : State) (payload : List Byte) (lo hi : Byte), s.dataComing = true → s.cfg.crcEnabled = true →
    s.frameComing.map reverse = payload ++ [lo, hi] →
    (lo ≠ (crc16 payload).extractLsb' 0 8 ∨ hi ≠ (crc16 payload).extractLsb' 8 8) →
    exec (.receive channel) s = .next { s with
      cfg := { s.cfg with channel := channel }
      listening := true
      answers := s.answersAfterFrame
      trace := s.trace ++ (if channel = s.cfg.channel then [] else [.setChannel channel]) ++
        [.startListening, .isDataAvailable, .readBytes (BitVec.ofNat 9 (s.cfg.maxPacketLength.toNat + 2))]
      responses := s.responses ++ [⟨if s.receivedFlag then BitVec.ofNat 16 s.buf.length else 0, 0, []⟩] }

/-- 43_radio_commands.md, internal receive (D21): with validation off all `maxPacketLength + 2` reversed bytes are the packet,
whatever the last two are, clamped to `CAP`. -/
def Obligations.ReceiveWithoutValidationKeepsEveryByte : Prop :=
  ∀ (channel : Byte) (s : State), s.dataComing = true → s.cfg.crcEnabled = false →
    exec (.receive channel) s = .next { s with
      cfg := { s.cfg with channel := channel }
      buf := (s.frameComing.map reverse).take s.params.cap
      receivedFlag := true
      listening := true
      answers := s.answersAfterFrame
      trace := s.trace ++ (if channel = s.cfg.channel then [] else [.setChannel channel]) ++
        [.startListening, .isDataAvailable, .readBytes (BitVec.ofNat 9 (s.cfg.maxPacketLength.toNat + 2))]
      responses := s.responses ++ [⟨BitVec.ofNat 16 (min (s.cfg.maxPacketLength.toNat + 2) s.params.cap), 0, []⟩] }

/-- 43_radio_commands.md, transmit (D18, D22 to D24, C1): stop listening, the channel if changed, the framed buffer three times
with its length; the buffer and the flag are untouched. -/
def Obligations.TransmitWritesTheFramedBufferThreeTimes : Prop :=
  ∀ (channel : Byte) (s : State), exec (.transmit channel) s = .next { s with
    cfg := { s.cfg with channel := channel }
    listening := false
    trace := s.trace ++ [.stopListening] ++ (if channel = s.cfg.channel then [] else [.setChannel channel]) ++
      [.writeBytes (frameEncode s.buf) (s.buf.length + 2), .writeBytes (frameEncode s.buf) (s.buf.length + 2),
       .writeBytes (frameEncode s.buf) (s.buf.length + 2)]
    responses := s.responses ++ [⟨0x0000, 0, []⟩] }

/-- 60_exceptions.md R84: every operation is total: for every operand value, state and transceiver answer there is a next state,
a call trace and exactly one response; no step ever faults. -/
def Obligations.EveryOperationCompletesWithOneResponse : Prop :=
  (∀ (i : Instr) (s : State), ∃ (t : State) (calls : List TCall) (r : Response),
    exec i s = .next t ∧ t.trace = s.trace ++ calls ∧ t.responses = s.responses ++ [r]) ∧
  (∀ (s : State) (f : Fault), step s ≠ .fault f)

/-! ### Whole-machine rules -/

/-- A step keeps the invariant: legal parameters, the buffer within `CAP`, every call sound (every frame written has CRC residue
0 and its stated length) and every response sound. -/
def Obligations.StepKeepsTheInvariant : Prop :=
  ∀ s t : State, s.Inv → step s = .next t → t.Inv

/-- A step keeps the registers in agreement with what the call trace has commanded: payload size, both pipes, channel since
`open`, listen mode since `open` (the last two are the spec's decisions D18, D19). -/
def Obligations.StepKeepsRegistersMirroringTheCallTrace : Prop :=
  ∀ s t : State, s.Mirrors → step s = .next t → t.Mirrors

/-- 41_config_commands.md: `open` programs the transceiver's payload size and both pipes from the configuration, and every
later step keeps them consistent with it. -/
def Obligations.TransceiverStaysConsistentAfterOpen : Prop :=
  (∀ s t : State, exec .openRadio s = .next t → t.Programmed) ∧
  (∀ s t : State, s.Programmed → step s = .next t → t.Programmed)

/-- 10_state.md, the inventory: each register, the command port and the answer port change under no operation but those the
table names as its writers; the parameters never change. -/
def Obligations.RegistersChangeOnlyUnderTheirWriters : Prop :=
  ∀ (i : Instr) (s t : State), exec i s = .next t →
    t.params = s.params ∧ t.commands = s.commands ∧ t.cfg.syncwordLength = 5 ∧
    ((t.cfg.syncword0 ≠ s.cfg.syncword0 ∨ t.cfg.syncword3 ≠ s.cfg.syncword3) →
      i = .openRadio ∨ ∃ sw0 sw3, i = .setSyncword sw0 sw3) ∧
    (t.cfg.maxPacketLength ≠ s.cfg.maxPacketLength → i = .openRadio ∨ ∃ n, i = .setMaxPacketLength n) ∧
    (t.cfg.crcEnabled ≠ s.cfg.crcEnabled → i = .openRadio ∨ ∃ e, i = .setCRC e) ∧
    (t.cfg.channel ≠ s.cfg.channel → i = .openRadio ∨ (∃ c, i = .receive c) ∨ ∃ c, i = .transmit c) ∧
    (t.buf ≠ s.buf → i = .openRadio ∨ (∃ n d, i = .writeFIFO n d) ∨ (∃ n, i = .readFIFO n) ∨ ∃ c, i = .receive c) ∧
    (t.receivedFlag ≠ s.receivedFlag → i = .openRadio ∨ (∃ n d, i = .writeFIFO n d) ∨ ∃ c, i = .receive c) ∧
    (t.listening ≠ s.listening → i = .openRadio ∨ (∃ c, i = .receive c) ∨ ∃ c, i = .transmit c) ∧
    (t.answers ≠ s.answers → ∃ c, i = .receive c)

/-- 10_state.md R25: `receivedFlag` is set by an accepted frame and by nothing else, cleared by `writeFIFO` and `open`, and
otherwise unchanged; `receive` alone reads it: any other operation does the same to the rest of the state with the flag
inverted. Its reset value is false. -/
def Obligations.ReceivedFlagIsSetOnlyByAnAcceptedFrame : Prop :=
  (∀ (i : Instr) (s t : State), exec i s = .next t →
    t.receivedFlag = (match i with
      | .openRadio => false
      | .writeFIFO _ _ => false
      | .receive _ => s.acceptsFrame || s.receivedFlag
      | _ => s.receivedFlag)) ∧
  (∀ (i : Instr) (s t : State) (v : Bool), (∀ c, i ≠ .receive c) → exec i s = .next t →
    ∃ t', exec i { s with receivedFlag := v } = .next t' ∧ { t' with receivedFlag := t.receivedFlag } = t) ∧
  (∀ p : Params, (State.resetOf p).receivedFlag = false)

/-- 10_state.md section 4 (D19): no operation reads `listening`: with the bit changed, every operation gives the same state but
for that bit, the same calls and the same response. -/
def Obligations.NoOperationReadsListening : Prop :=
  ∀ (i : Instr) (s t : State) (v : Bool), exec i s = .next t →
    ∃ t', exec i { s with listening := v } = .next t' ∧ { t' with listening := t.listening } = t

/-- 10_state.md section 2 and 90_conflicts.md C1: no operation but `receive` reads `crcEnabled`, `transmit` in particular: with
the register changed it gives the same state but for that register, the same calls and the same response. -/
def Obligations.OnlyReceiveReadsCrcEnabled : Prop :=
  ∀ (i : Instr) (s t : State) (v : Bool), (∀ c, i ≠ .receive c) → exec i s = .next t →
    ∃ t', exec i { s with cfg := { s.cfg with crcEnabled := v } } = .next t' ∧
      { t' with cfg := { t'.cfg with crcEnabled := t.cfg.crcEnabled } } = t

/-- 30_encoding.md section 3 and 43_radio_commands.md (D4, D12, D16, D24): which calls each operation emits, and in which order,
by their numbers T0 to T14. -/
def Obligations.EachOperationEmitsItsOwnCalls : Prop :=
  ∀ (i : Instr) (s t : State), exec i s = .next t → ∃ calls : List TCall, t.trace = s.trace ++ calls ∧
    (match i with
      | .openRadio => calls.map TCall.code = [0, 1, 2, 3, 4, 5, 6, 7, 8]
      | .setSyncword _ _ => calls.map TCall.code ∈ [[], [6, 7, 8]]
      | .setMaxPacketLength _ => calls.map TCall.code ∈ [[], [6, 7, 8]]
      | .setCRC _ => calls = []
      | .receive _ => calls.map TCall.code ∈ [[10, 12], [9, 10, 12], [10, 12, 13], [9, 10, 12, 13]]
      | .readFIFO _ => calls = []
      | .writeFIFO _ _ => calls = []
      | .transmit _ => calls.map TCall.code ∈ [[11, 14, 14, 14], [11, 9, 14, 14, 14]]
      | .setPreambleLength _ => calls = []
      | .setTrailerLength _ => calls = [])

/-- 43_radio_commands.md, The state machine (D19): the transition table of the state view. -/
def Obligations.StateViewFollowsTheTransitionTable : Prop :=
  ∀ (i : Instr) (s t : State), exec i s = .next t →
    t.view = (match i with
      | .openRadio => .idle
      | .writeFIFO _ _ => if s.listening then .listening else .idle
      | .receive _ => if s.acceptsFrame then .packetReady else if s.view = .packetReady then .packetReady else .listening
      | .transmit _ => if s.view = .packetReady then .packetReady else .idle
      | _ => s.view)

/-- 60_exceptions.md R86: oversized requests are clamped, not rejected, with no signal beyond the returned length. -/
def Obligations.OversizedRequestsAreClamped : Prop :=
  (∀ (n : Half) (data : List Byte) (s : State), WellFormed (.writeFIFO n data) → s.params.cap < n.toNat →
    ∃ t, exec (.writeFIFO n data) s = .next t ∧ t.buf = data.take s.params.cap ∧ t.buf.length = s.params.cap ∧
      t.responses = s.responses ++ [⟨BitVec.ofNat 16 s.params.cap, 0, []⟩]) ∧
  (∀ (n : Half) (s : State), s.buf.length < n.toNat →
    ∃ t, exec (.readFIFO n) s = .next t ∧ t.buf = [] ∧
      t.responses = s.responses ++ [⟨0, BitVec.ofNat 16 s.buf.length, s.buf⟩]) ∧
  (∀ (c : Byte) (s : State) (payload : List Byte), s.dataComing = true →
    frameDecode s.frameComing s.cfg.crcEnabled = some payload → s.params.cap < payload.length →
    ∃ t, exec (.receive c) s = .next t ∧ t.buf = payload.take s.params.cap ∧ t.buf.length = s.params.cap ∧
      t.responses = s.responses ++ [⟨BitVec.ofNat 16 s.params.cap, 0, []⟩]) ∧
  (∀ (i : Instr) (s : State), ∃ t, exec i s = .next t)

/-- 70_reset_and_hazards.md R102: `writeFIFO` replaces the whole buffer unconditionally and clears the flag; after that
`receive` returns 0, and leaves buffer and flag as they are, until a new frame is accepted: after any operations since, with
whatever commands and answers come in between, as long as none of them accepts a frame. -/
def Obligations.WriteDestroysAnUnconsumedPacket : Prop :=
  ∀ (n : Half) (data : List Byte) (s : State), WellFormed (.writeFIFO n data) →
    ∃ t, exec (.writeFIFO n data) s = .next t ∧ t.buf = data.take s.params.cap ∧ t.receivedFlag = false ∧
      ∀ u, RunsWithoutAccepting t u → ∀ c : Byte, u.acceptsFrame = false →
        ∃ v, exec (.receive c) u = .next v ∧ v.buf = u.buf ∧ v.receivedFlag = false ∧
          v.responses = u.responses ++ [⟨0, 0, []⟩]

/-- 42_buffer_commands.md, Laws: a write then a read of the same length gives back the data truncated to capacity, with nothing
remaining. -/
def Obligations.ReadAfterWriteGivesBackTheData : Prop :=
  ∀ (n : Half) (data : List Byte) (s : State), WellFormed (.writeFIFO n data) →
    ∃ t u, exec (.writeFIFO n data) s = .next t ∧ exec (.readFIFO n) t = .next u ∧ u.buf = [] ∧
      u.responses = t.responses ++
        [⟨0, BitVec.ofNat 16 (min n.toNat s.params.cap), data.take (min n.toNat s.params.cap)⟩]

/-- 42_buffer_commands.md, Laws: the data of successive reads, put together, are a prefix of the buffer in order; what is left
is the rest; all of it has been read once the requested lengths sum to the buffer's length. -/
def Obligations.SuccessiveReadsDrainInOrder : Prop :=
  ∀ (ns : List Half) (s : State), ∃ (t : State) (rs : List Response), s.afterReads ns = some t ∧
    t.responses = s.responses ++ rs ∧ rs.length = ns.length ∧
    (rs.map (fun r => r.data)).flatten ++ t.buf = s.buf ∧
    (s.buf.length ≤ (ns.map (fun n => n.toNat)).sum → t.buf = [])

/-- 20_memory.md section 3: a repeated `writeFIFO`, and a repeated `transmit`, changes no register; the `transmit` still emits its
calls anew. -/
def Obligations.RepeatedWriteOrTransmitChangesNoRegister : Prop :=
  (∀ (n : Half) (data : List Byte) (s t u : State), exec (.writeFIFO n data) s = .next t →
    exec (.writeFIFO n data) t = .next u → u.registers = t.registers ∧ u.trace = t.trace) ∧
  (∀ (c : Byte) (s t u : State), exec (.transmit c) s = .next t → exec (.transmit c) t = .next u →
    u.registers = t.registers ∧ t.buf = s.buf ∧
    u.trace = t.trace ++ [.stopListening] ++ List.replicate 3 (.writeBytes (frameEncode s.buf) (s.buf.length + 2)))

/-- 43_radio_commands.md, Laws: what one CORE transmits, three times the same frame, another with the matching length receives:
with validation `receive` returns the length and `readFIFO` the packet; without it the packet comes with its two CRC bytes. -/
def Obligations.TransmittedPacketIsReceivedIntact : Prop :=
  ∀ (sender sent : State) (c : Byte), exec (.transmit c) sender = .next sent →
    ∃ (before : List TCall) (f : List Byte),
      sent.trace = before ++ List.replicate 3 (.writeBytes f (sender.buf.length + 2)) ∧
      (∀ (r : State) (ch : Byte) (more : List Bool) (later : List Byte),
        r.answers.available = true :: more → r.answers.bytes = f ++ later →
        r.cfg.maxPacketLength.toNat = sender.buf.length →
        (r.cfg.crcEnabled = true → sender.buf.length ≤ r.params.cap →
          ∃ t u, exec (.receive ch) r = .next t ∧ exec (.readFIFO (BitVec.ofNat 16 sender.buf.length)) t = .next u ∧
            u.buf = [] ∧
            u.responses = r.responses ++ [⟨BitVec.ofNat 16 sender.buf.length, 0, []⟩,
              ⟨0, BitVec.ofNat 16 sender.buf.length, sender.buf⟩]) ∧
        (r.cfg.crcEnabled = false → sender.buf.length + 2 ≤ r.params.cap →
          ∃ t, exec (.receive ch) r = .next t ∧ t.receivedFlag = true ∧
            t.buf = sender.buf ++ [(crc16 sender.buf).extractLsb' 0 8, (crc16 sender.buf).extractLsb' 8 8] ∧
            t.responses = r.responses ++ [⟨BitVec.ofNat 16 (sender.buf.length + 2), 0, []⟩]))
end

