-- ==== Sys2Proof/Laws/Decode.lean ====
section
/-! SUPPORT. Small lemmas about the command port's items, the fields of the command word and `takeData`. -/
namespace Sys2Proof

/-- The data bytes laid on the port are the ones taken. -/
theorem takeData_map_data (xs : List Byte) (rest : List PortItem) :
    takeData xs.length (xs.map .data ++ rest) = some (xs, rest) := by
  induction xs with
  | nil => rfl
  | cons x xs ih => simp [takeData, ih]

/-- Whatever `takeData` takes stood at the front of the port, and is as many bytes as asked for. -/
theorem takeData_some (n : Nat) (items rest : List PortItem) (xs : List Byte) (h : takeData n items = some (xs, rest)) :
    xs.length = n ∧ items = xs.map .data ++ rest := by
  induction n generalizing items xs with
  | zero => simp [takeData] at h; obtain ⟨rfl, rfl⟩ := h; simp
  | succ n ih =>
    match items with
    | [] => simp [takeData] at h
    | .word _ :: _ => simp [takeData] at h
    | .data x :: items =>
      simp only [takeData] at h
      split at h
      · next ys rest' hy =>
        simp only [Option.some.injEq, Prod.mk.injEq] at h
        obtain ⟨rfl, rfl⟩ := h
        obtain ⟨h1, h2⟩ := ih items ys hy
        simp [h1, h2]
      · cases h

@[simp] theorem opField_assembleWord (op : Byte) (a b : Half) : opField (assembleWord op a b) = op := by
  apply BitVec.eq_of_getLsbD_eq
  intro i hi
  simp only [opField, assembleWord, BitVec.getLsbD_extractLsb', BitVec.getLsbD_append]
  have h1 : ¬ 32 + i < 16 := by omega
  have h2 : ¬ 32 + i - 16 < 16 := by omega
  have h3 : 32 + i - 16 - 16 = i := by omega
  simp [hi, h1, h2, h3]

@[simp] theorem aField_assembleWord (op : Byte) (a b : Half) : aField (assembleWord op a b) = a := by
  apply BitVec.eq_of_getLsbD_eq
  intro i hi
  simp only [aField, assembleWord, BitVec.getLsbD_extractLsb', BitVec.getLsbD_append]
  have h1 : ¬ 16 + i < 16 := by omega
  have h3 : 16 + i - 16 = i := by omega
  simp [hi, h1, h3]

@[simp] theorem bField_assembleWord (op : Byte) (a b : Half) : bField (assembleWord op a b) = b := by
  apply BitVec.eq_of_getLsbD_eq
  intro i hi
  simp only [bField, assembleWord, BitVec.getLsbD_extractLsb', BitVec.getLsbD_append]
  simp [hi]

end Sys2Proof
end

