-- ==== Sys2Proof/Laws/Functions.lean ====
section
/-! SUPPORT. Small lemmas about the pure units. -/
namespace Sys2Proof.Machine

@[simp] theorem crc16_nil : crc16 [] = 0 := rfl

/-- The CRC of a longer sequence continues from that of its front. -/
theorem crc16_append (a b : List Byte) : crc16 (a ++ b) = b.foldl crcByte (crc16 a) := by
  simp [crc16, List.foldl_append]

@[simp] theorem crcTrailer_length (c : Half) : (crcTrailer c).length = 2 := rfl

/-- Framing adds the two trailer bytes. -/
theorem frameEncode_length (p : List Byte) : (frameEncode p).length = p.length + crcBytes := by
  simp [frameEncode, crcBytes]

/-- With validation off a frame is accepted whole. -/
theorem frameDecode_off (r : List Byte) : frameDecode r false = some (r.map reverse) := rfl

/-- A decoded payload is never longer than the frame. -/
theorem frameDecode_length_le (r p : List Byte) (e : Bool) (h : frameDecode r e = some p) : p.length ≤ r.length := by
  unfold frameDecode at h
  cases e with
  | false => simp at h; simp [← h]
  | true =>
    simp only [if_true] at h
    split at h
    · cases h; simp
    · cases h

end Sys2Proof.Machine
end

