-- ==== Sys2Proof/Laws/State.lean ====
section
/-! SUPPORT. One lemma per field per register write, each true by definition, so that no proof unfolds a record update. -/
namespace Sys2Proof.Machine

/-! ### writeReceivedFlag -/

@[simp] theorem writeReceivedFlag_params (v : Bool) (s : State) : (writeReceivedFlag v s).params = s.params := rfl
@[simp] theorem writeReceivedFlag_cfg (v : Bool) (s : State) : (writeReceivedFlag v s).cfg = s.cfg := rfl
@[simp] theorem writeReceivedFlag_buf (v : Bool) (s : State) : (writeReceivedFlag v s).buf = s.buf := rfl
@[simp] theorem writeReceivedFlag_receivedFlag (v : Bool) (s : State) : (writeReceivedFlag v s).receivedFlag = v := rfl
@[simp] theorem writeReceivedFlag_listening (v : Bool) (s : State) : (writeReceivedFlag v s).listening = s.listening := rfl
@[simp] theorem writeReceivedFlag_commands (v : Bool) (s : State) : (writeReceivedFlag v s).commands = s.commands := rfl
@[simp] theorem writeReceivedFlag_answers (v : Bool) (s : State) : (writeReceivedFlag v s).answers = s.answers := rfl
@[simp] theorem writeReceivedFlag_trace (v : Bool) (s : State) : (writeReceivedFlag v s).trace = s.trace := rfl
@[simp] theorem writeReceivedFlag_responses (v : Bool) (s : State) : (writeReceivedFlag v s).responses = s.responses := rfl

/-! ### writeListening -/

@[simp] theorem writeListening_params (v : Bool) (s : State) : (writeListening v s).params = s.params := rfl
@[simp] theorem writeListening_cfg (v : Bool) (s : State) : (writeListening v s).cfg = s.cfg := rfl
@[simp] theorem writeListening_buf (v : Bool) (s : State) : (writeListening v s).buf = s.buf := rfl
@[simp] theorem writeListening_receivedFlag (v : Bool) (s : State) : (writeListening v s).receivedFlag = s.receivedFlag := rfl
@[simp] theorem writeListening_listening (v : Bool) (s : State) : (writeListening v s).listening = v := rfl
@[simp] theorem writeListening_commands (v : Bool) (s : State) : (writeListening v s).commands = s.commands := rfl
@[simp] theorem writeListening_answers (v : Bool) (s : State) : (writeListening v s).answers = s.answers := rfl
@[simp] theorem writeListening_trace (v : Bool) (s : State) : (writeListening v s).trace = s.trace := rfl
@[simp] theorem writeListening_responses (v : Bool) (s : State) : (writeListening v s).responses = s.responses := rfl

/-! ### writeSyncwords -/

@[simp] theorem writeSyncwords_params (sw0 sw3 : Half) (s : State) : (writeSyncwords sw0 sw3 s).params = s.params := rfl
@[simp] theorem writeSyncwords_cfg (sw0 sw3 : Half) (s : State) : (writeSyncwords sw0 sw3 s).cfg = { s.cfg with syncword0 := sw0, syncword3 := sw3 } := rfl
@[simp] theorem writeSyncwords_buf (sw0 sw3 : Half) (s : State) : (writeSyncwords sw0 sw3 s).buf = s.buf := rfl
@[simp] theorem writeSyncwords_receivedFlag (sw0 sw3 : Half) (s : State) : (writeSyncwords sw0 sw3 s).receivedFlag = s.receivedFlag := rfl
@[simp] theorem writeSyncwords_listening (sw0 sw3 : Half) (s : State) : (writeSyncwords sw0 sw3 s).listening = s.listening := rfl
@[simp] theorem writeSyncwords_commands (sw0 sw3 : Half) (s : State) : (writeSyncwords sw0 sw3 s).commands = s.commands := rfl
@[simp] theorem writeSyncwords_answers (sw0 sw3 : Half) (s : State) : (writeSyncwords sw0 sw3 s).answers = s.answers := rfl
@[simp] theorem writeSyncwords_trace (sw0 sw3 : Half) (s : State) : (writeSyncwords sw0 sw3 s).trace = s.trace := rfl
@[simp] theorem writeSyncwords_responses (sw0 sw3 : Half) (s : State) : (writeSyncwords sw0 sw3 s).responses = s.responses := rfl

/-! ### writeMaxPacketLength -/

@[simp] theorem writeMaxPacketLength_params (n : Byte) (s : State) : (writeMaxPacketLength n s).params = s.params := rfl
@[simp] theorem writeMaxPacketLength_cfg (n : Byte) (s : State) : (writeMaxPacketLength n s).cfg = { s.cfg with maxPacketLength := n } := rfl
@[simp] theorem writeMaxPacketLength_buf (n : Byte) (s : State) : (writeMaxPacketLength n s).buf = s.buf := rfl
@[simp] theorem writeMaxPacketLength_receivedFlag (n : Byte) (s : State) : (writeMaxPacketLength n s).receivedFlag = s.receivedFlag := rfl
@[simp] theorem writeMaxPacketLength_listening (n : Byte) (s : State) : (writeMaxPacketLength n s).listening = s.listening := rfl
@[simp] theorem writeMaxPacketLength_commands (n : Byte) (s : State) : (writeMaxPacketLength n s).commands = s.commands := rfl
@[simp] theorem writeMaxPacketLength_answers (n : Byte) (s : State) : (writeMaxPacketLength n s).answers = s.answers := rfl
@[simp] theorem writeMaxPacketLength_trace (n : Byte) (s : State) : (writeMaxPacketLength n s).trace = s.trace := rfl
@[simp] theorem writeMaxPacketLength_responses (n : Byte) (s : State) : (writeMaxPacketLength n s).responses = s.responses := rfl

/-! ### writeCrcEnabled -/

@[simp] theorem writeCrcEnabled_params (v : Bool) (s : State) : (writeCrcEnabled v s).params = s.params := rfl
@[simp] theorem writeCrcEnabled_cfg (v : Bool) (s : State) : (writeCrcEnabled v s).cfg = { s.cfg with crcEnabled := v } := rfl
@[simp] theorem writeCrcEnabled_buf (v : Bool) (s : State) : (writeCrcEnabled v s).buf = s.buf := rfl
@[simp] theorem writeCrcEnabled_receivedFlag (v : Bool) (s : State) : (writeCrcEnabled v s).receivedFlag = s.receivedFlag := rfl
@[simp] theorem writeCrcEnabled_listening (v : Bool) (s : State) : (writeCrcEnabled v s).listening = s.listening := rfl
@[simp] theorem writeCrcEnabled_commands (v : Bool) (s : State) : (writeCrcEnabled v s).commands = s.commands := rfl
@[simp] theorem writeCrcEnabled_answers (v : Bool) (s : State) : (writeCrcEnabled v s).answers = s.answers := rfl
@[simp] theorem writeCrcEnabled_trace (v : Bool) (s : State) : (writeCrcEnabled v s).trace = s.trace := rfl
@[simp] theorem writeCrcEnabled_responses (v : Bool) (s : State) : (writeCrcEnabled v s).responses = s.responses := rfl

/-! ### writeChannel -/

@[simp] theorem writeChannel_params (c : Byte) (s : State) : (writeChannel c s).params = s.params := rfl
@[simp] theorem writeChannel_cfg (c : Byte) (s : State) : (writeChannel c s).cfg = { s.cfg with channel := c } := rfl
@[simp] theorem writeChannel_buf (c : Byte) (s : State) : (writeChannel c s).buf = s.buf := rfl
@[simp] theorem writeChannel_receivedFlag (c : Byte) (s : State) : (writeChannel c s).receivedFlag = s.receivedFlag := rfl
@[simp] theorem writeChannel_listening (c : Byte) (s : State) : (writeChannel c s).listening = s.listening := rfl
@[simp] theorem writeChannel_commands (c : Byte) (s : State) : (writeChannel c s).commands = s.commands := rfl
@[simp] theorem writeChannel_answers (c : Byte) (s : State) : (writeChannel c s).answers = s.answers := rfl
@[simp] theorem writeChannel_trace (c : Byte) (s : State) : (writeChannel c s).trace = s.trace := rfl
@[simp] theorem writeChannel_responses (c : Byte) (s : State) : (writeChannel c s).responses = s.responses := rfl

/-! ### resetConfiguration -/

@[simp] theorem resetConfiguration_params (s : State) : (resetConfiguration s).params = s.params := rfl
@[simp] theorem resetConfiguration_cfg (s : State) : (resetConfiguration s).cfg = RadioConfiguration.reset s.params := rfl
@[simp] theorem resetConfiguration_buf (s : State) : (resetConfiguration s).buf = s.buf := rfl
@[simp] theorem resetConfiguration_receivedFlag (s : State) : (resetConfiguration s).receivedFlag = s.receivedFlag := rfl
@[simp] theorem resetConfiguration_listening (s : State) : (resetConfiguration s).listening = s.listening := rfl
@[simp] theorem resetConfiguration_commands (s : State) : (resetConfiguration s).commands = s.commands := rfl
@[simp] theorem resetConfiguration_answers (s : State) : (resetConfiguration s).answers = s.answers := rfl
@[simp] theorem resetConfiguration_trace (s : State) : (resetConfiguration s).trace = s.trace := rfl
@[simp] theorem resetConfiguration_responses (s : State) : (resetConfiguration s).responses = s.responses := rfl

/-! ### memWrite -/

@[simp] theorem memWrite_params (v : List Byte) (s : State) : (memWrite v s).params = s.params := rfl
@[simp] theorem memWrite_cfg (v : List Byte) (s : State) : (memWrite v s).cfg = s.cfg := rfl
@[simp] theorem memWrite_buf (v : List Byte) (s : State) : (memWrite v s).buf = v := rfl
@[simp] theorem memWrite_receivedFlag (v : List Byte) (s : State) : (memWrite v s).receivedFlag = s.receivedFlag := rfl
@[simp] theorem memWrite_listening (v : List Byte) (s : State) : (memWrite v s).listening = s.listening := rfl
@[simp] theorem memWrite_commands (v : List Byte) (s : State) : (memWrite v s).commands = s.commands := rfl
@[simp] theorem memWrite_answers (v : List Byte) (s : State) : (memWrite v s).answers = s.answers := rfl
@[simp] theorem memWrite_trace (v : List Byte) (s : State) : (memWrite v s).trace = s.trace := rfl
@[simp] theorem memWrite_responses (v : List Byte) (s : State) : (memWrite v s).responses = s.responses := rfl

/-! ### emit -/

@[simp] theorem emit_params (c : TCall) (s : State) : (emit c s).params = s.params := rfl
@[simp] theorem emit_cfg (c : TCall) (s : State) : (emit c s).cfg = s.cfg := rfl
@[simp] theorem emit_buf (c : TCall) (s : State) : (emit c s).buf = s.buf := rfl
@[simp] theorem emit_receivedFlag (c : TCall) (s : State) : (emit c s).receivedFlag = s.receivedFlag := rfl
@[simp] theorem emit_listening (c : TCall) (s : State) : (emit c s).listening = s.listening := rfl
@[simp] theorem emit_commands (c : TCall) (s : State) : (emit c s).commands = s.commands := rfl
@[simp] theorem emit_answers (c : TCall) (s : State) : (emit c s).answers = s.answers := rfl
@[simp] theorem emit_trace (c : TCall) (s : State) : (emit c s).trace = s.trace ++ [c] := rfl
@[simp] theorem emit_responses (c : TCall) (s : State) : (emit c s).responses = s.responses := rfl

/-! ### emitAll -/

@[simp] theorem emitAll_params (cs : List TCall) (s : State) : (emitAll cs s).params = s.params := rfl
@[simp] theorem emitAll_cfg (cs : List TCall) (s : State) : (emitAll cs s).cfg = s.cfg := rfl
@[simp] theorem emitAll_buf (cs : List TCall) (s : State) : (emitAll cs s).buf = s.buf := rfl
@[simp] theorem emitAll_receivedFlag (cs : List TCall) (s : State) : (emitAll cs s).receivedFlag = s.receivedFlag := rfl
@[simp] theorem emitAll_listening (cs : List TCall) (s : State) : (emitAll cs s).listening = s.listening := rfl
@[simp] theorem emitAll_commands (cs : List TCall) (s : State) : (emitAll cs s).commands = s.commands := rfl
@[simp] theorem emitAll_answers (cs : List TCall) (s : State) : (emitAll cs s).answers = s.answers := rfl
@[simp] theorem emitAll_trace (cs : List TCall) (s : State) : (emitAll cs s).trace = s.trace ++ cs := rfl
@[simp] theorem emitAll_responses (cs : List TCall) (s : State) : (emitAll cs s).responses = s.responses := rfl

/-! ### writeAnswers -/

@[simp] theorem writeAnswers_params (a : Answers) (s : State) : (writeAnswers a s).params = s.params := rfl
@[simp] theorem writeAnswers_cfg (a : Answers) (s : State) : (writeAnswers a s).cfg = s.cfg := rfl
@[simp] theorem writeAnswers_buf (a : Answers) (s : State) : (writeAnswers a s).buf = s.buf := rfl
@[simp] theorem writeAnswers_receivedFlag (a : Answers) (s : State) : (writeAnswers a s).receivedFlag = s.receivedFlag := rfl
@[simp] theorem writeAnswers_listening (a : Answers) (s : State) : (writeAnswers a s).listening = s.listening := rfl
@[simp] theorem writeAnswers_commands (a : Answers) (s : State) : (writeAnswers a s).commands = s.commands := rfl
@[simp] theorem writeAnswers_answers (a : Answers) (s : State) : (writeAnswers a s).answers = a := rfl
@[simp] theorem writeAnswers_trace (a : Answers) (s : State) : (writeAnswers a s).trace = s.trace := rfl
@[simp] theorem writeAnswers_responses (a : Answers) (s : State) : (writeAnswers a s).responses = s.responses := rfl

/-! ### writeCommands -/

@[simp] theorem writeCommands_params (items : List PortItem) (s : State) : (writeCommands items s).params = s.params := rfl
@[simp] theorem writeCommands_cfg (items : List PortItem) (s : State) : (writeCommands items s).cfg = s.cfg := rfl
@[simp] theorem writeCommands_buf (items : List PortItem) (s : State) : (writeCommands items s).buf = s.buf := rfl
@[simp] theorem writeCommands_receivedFlag (items : List PortItem) (s : State) : (writeCommands items s).receivedFlag = s.receivedFlag := rfl
@[simp] theorem writeCommands_listening (items : List PortItem) (s : State) : (writeCommands items s).listening = s.listening := rfl
@[simp] theorem writeCommands_commands (items : List PortItem) (s : State) : (writeCommands items s).commands = items := rfl
@[simp] theorem writeCommands_answers (items : List PortItem) (s : State) : (writeCommands items s).answers = s.answers := rfl
@[simp] theorem writeCommands_trace (items : List PortItem) (s : State) : (writeCommands items s).trace = s.trace := rfl
@[simp] theorem writeCommands_responses (items : List PortItem) (s : State) : (writeCommands items s).responses = s.responses := rfl

/-! ### respond, reset -/

/-- `respond` always answers a next state, and which. -/
theorem respond_eq (r : Response) (s : State) : respond r s = .next { s with responses := s.responses ++ [r] } := rfl

/-- The next state after `respond`, said once. -/
theorem respond_next_iff (r : Response) (s t : State) :
    respond r s = .next t ↔ t = { s with responses := s.responses ++ [r] } := by
  rw [respond_eq]
  constructor
  · intro h; cases h; rfl
  · rintro rfl; rfl

@[simp] theorem length_eq (s : State) : s.length = s.buf.length := rfl

@[simp] theorem resetOf_params (p : Params) : (State.resetOf p).params = p := rfl
@[simp] theorem resetOf_cfg (p : Params) : (State.resetOf p).cfg = RadioConfiguration.reset p := rfl
@[simp] theorem resetOf_buf (p : Params) : (State.resetOf p).buf = [] := rfl
@[simp] theorem resetOf_receivedFlag (p : Params) : (State.resetOf p).receivedFlag = false := rfl
@[simp] theorem resetOf_listening (p : Params) : (State.resetOf p).listening = false := rfl
@[simp] theorem resetOf_commands (p : Params) : (State.resetOf p).commands = [] := rfl
@[simp] theorem resetOf_trace (p : Params) : (State.resetOf p).trace = [] := rfl
@[simp] theorem resetOf_responses (p : Params) : (State.resetOf p).responses = [] := rfl

end Sys2Proof.Machine
end

