-- ==== Sys2Proof/Laws/Ops.lean ====
section
/-! SUPPORT. For each shared operation, what it can do, said once; cited by proofs instead of unfolding it. -/
namespace Sys2Proof.Machine

/-! ### The Packet Buffer keeps its canonical form -/

/-- The buffer's canonical form as an inequality. -/
theorem memory_wf_iff (cap : Nat) (m : Memory) : Memory.wf cap m = true ↔ m.length ≤ cap := by
  simp [Memory.wf]

/-- Any prefix of at most `cap` bytes is in canonical form: what `bufWrite` stores. -/
theorem memory_wf_take (cap n : Nat) (m : List Byte) : Memory.wf cap (m.take (min n cap)) = true := by
  rw [memory_wf_iff, List.length_take]; omega

/-- Draining from the front keeps the canonical form: what `bufRead` leaves. -/
theorem memory_wf_drop (cap n : Nat) (m : Memory) (h : Memory.wf cap m = true) : Memory.wf cap (m.drop n) = true := by
  rw [memory_wf_iff] at *; rw [List.length_drop]; omega

/-- The empty buffer is in canonical form: what `open` and reset leave. -/
theorem memory_wf_nil (cap : Nat) : Memory.wf cap [] = true := by simp [Memory.wf]

/-- `bufWrite` keeps the canonical form, whatever was there. -/
theorem bufWrite_wf (data : List Byte) (s : State) : Memory.wf s.params.cap (bufWrite data s).2.buf = true :=
  memory_wf_take _ _ _

/-- `bufRead` keeps the canonical form. -/
theorem bufRead_wf (n : Nat) (s : State) (h : Memory.wf s.params.cap s.buf = true) :
    Memory.wf s.params.cap (bufRead n s).state.buf = true :=
  memory_wf_drop _ _ _ h

/-- A buffer at reset is in canonical form. -/
theorem resetOf_wf (p : Params) : Memory.wf p.cap (State.resetOf p).buf = true := memory_wf_nil _

/-! ### bufRead and acceptPacket touch only the buffer (and the flag) -/

/-- The state after `bufRead`. -/
theorem bufRead_state (n : Nat) (s : State) :
    (bufRead n s).state = memWrite (s.buf.drop (min n s.buf.length)) s := rfl

/-- The state after an accepted packet. -/
theorem acceptPacket_eq (payload : List Byte) (s : State) :
    acceptPacket payload s = { s with buf := payload.take s.params.cap, receivedFlag := true } := by
  have h : payload.take (min payload.length s.params.cap) = payload.take s.params.cap := by
    rcases Nat.le_total payload.length s.params.cap with h | h
    · rw [Nat.min_eq_left h, List.take_of_length_le (Nat.le_refl _), List.take_of_length_le h]
    · rw [Nat.min_eq_right h]
  simp [acceptPacket, bufWrite, clampWrite, writeReceivedFlag, memWrite, h]

/-! ### The transceiver's answers -/

/-- `readBytes` yields exactly as many bytes as asked for. -/
theorem nextBytes_length (n : Nat) (a : Answers) : (a.nextBytes n).1.length = n := by
  induction n generalizing a with
  | zero => rfl
  | succ n ih => simp [Answers.nextBytes, ih]

/-- Given bytes are yielded in order and consumed. -/
theorem nextBytes_given (r rest : List Byte) (a : Answers) (h : a.bytes = r ++ rest) :
    a.nextBytes r.length = (r, { a with bytes := rest }) := by
  induction r generalizing a with
  | nil => cases a; simp at h; simp [Answers.nextBytes, h]
  | cons x xs ih =>
    have hb : a.nextByte = (x, { a with bytes := xs ++ rest }) := by
      simp [Answers.nextByte, h]
    simp [Answers.nextBytes, hb, ih]

/-- A given answer to `isDataAvailable` is the answer and is consumed. -/
theorem nextAvailable_given (b : Bool) (bs : List Bool) (a : Answers) (h : a.available = b :: bs) :
    a.nextAvailable = (b, { a with available := bs }) := by
  simp [Answers.nextAvailable, h]

/-- The payload size never wraps (spec/40_functions.md R58 d). -/
theorem payloadSize_toNat (c : RadioConfiguration) : c.payloadSize.toNat = c.maxPacketLength.toNat + 2 := by
  have h : c.maxPacketLength.toNat < 256 := c.maxPacketLength.isLt
  simp [RadioConfiguration.payloadSize, BitVec.toNat_add, BitVec.toNat_setWidth]
  omega

/-! ### Recompute and channel selection -/

/-- `recomputeIf` only adds calls to the trace. -/
theorem recomputeIf_eq (b : Bool) (s : State) :
    recomputeIf b s = emitAll (if b then recomputeCalls s.params s.cfg else []) s := by
  cases b <;> simp [recomputeIf, recompute, emitAll]

/-- `selectChannel` stores the channel and adds one call when it differed. -/
theorem selectChannel_eq (c : Byte) (s : State) :
    selectChannel c s =
      emitAll (if c = s.cfg.channel then [] else [.setChannel c]) (writeChannel c s) := by
  unfold selectChannel channelChanged
  by_cases h : c = s.cfg.channel
  · subst h; simp [emitAll, writeChannel]
  · simp [h, emit, emitAll]

/-! ### Polling -/

/-- What one poll does, every path of it. -/
theorem pollOnce_cases (s : State) :
    (s.answers.nextAvailable.1 = false ∧
      pollOnce s = writeAnswers s.answers.nextAvailable.2 (emit .isDataAvailable s)) ∨
    (s.answers.nextAvailable.1 = true ∧
      ∃ r a, s.answers.nextAvailable.2.nextBytes s.cfg.payloadSize.toNat = (r, a) ∧
        ((frameDecode r s.cfg.crcEnabled = none ∧
            pollOnce s = writeAnswers a (emitAll [.isDataAvailable, .readBytes s.cfg.payloadSize] s)) ∨
         (∃ payload, frameDecode r s.cfg.crcEnabled = some payload ∧
            pollOnce s = acceptPacket payload
              (writeAnswers a (emitAll [.isDataAvailable, .readBytes s.cfg.payloadSize] s))))) := by
  cases hb : s.answers.nextAvailable.1 with
  | false => left; simp [pollOnce, askAvailable, hb]
  | true =>
    right
    refine ⟨rfl, _, _, rfl, ?_⟩
    cases hd : frameDecode (s.answers.nextAvailable.2.nextBytes s.cfg.payloadSize.toNat).1 s.cfg.crcEnabled with
    | none =>
      left
      simp [pollOnce, askAvailable, hb, internalReceive, askBytes, hd, writeAnswers, emit, emitAll]
    | some payload =>
      right
      exact ⟨payload, rfl, by
        simp [pollOnce, askAvailable, hb, internalReceive, askBytes, hd, writeAnswers, emit, emitAll]⟩

end Sys2Proof.Machine
end

