-- ==== Sys2Proof/Laws/PerInstr.lean ====
section
/-! SUPPORT. Facts about every instruction as syntax, one lemma per constructor. -/
namespace Sys2Proof.Laws

namespace WordFields

/-- The encoded command word holds the instruction's opcode and operand fields, and the items after it are as many data
bytes as the decoder will count from that word (spec/30_encoding.md R40, R43). -/
def Statement (i : Instr) : Prop :=
  WellFormed i →
    opField (encodeWord i) = opcode i ∧ aField (encodeWord i) = operandA i ∧ bField (encodeWord i) = operandB i ∧
    (dataBytes i).length = dataCount (encodeWord i)

/-- The fields hold for every instruction; what is left is the number of data bytes. -/
theorem of_count (i : Instr)
    (h : WellFormed i → (dataBytes i).length = if opcode i = 0x06 then (operandB i).toNat else 0) : Statement i := by
  intro hw
  simp [encodeWord, dataCount, h hw]

theorem openRadio : Statement .openRadio := of_count _ fun _ => rfl

theorem setSyncword (sw0 sw3 : Half) : Statement (.setSyncword sw0 sw3) := of_count _ fun _ => rfl

theorem setMaxPacketLength (n : Byte) : Statement (.setMaxPacketLength n) := of_count _ fun _ => rfl

theorem setCRC (enabled : Bool) : Statement (.setCRC enabled) := of_count _ fun _ => rfl

theorem receive (channel : Byte) : Statement (.receive channel) := of_count _ fun _ => rfl

theorem readFIFO (maxLength : Half) : Statement (.readFIFO maxLength) := of_count _ fun _ => rfl

theorem writeFIFO (length : Half) (data : List Byte) : Statement (.writeFIFO length data) :=
  of_count _ fun h => of_decide_eq_true h

theorem transmit (channel : Byte) : Statement (.transmit channel) := of_count _ fun _ => rfl

theorem setPreambleLength (n : Byte) : Statement (.setPreambleLength n) := of_count _ fun _ => rfl

theorem setTrailerLength (n : Byte) : Statement (.setTrailerLength n) := of_count _ fun _ => rfl

end WordFields

end Sys2Proof.Laws
end

