-- ==== Sys2Proof/Laws/Step.lean ====
section
/-! SUPPORT. What a step can do, said once, and the induction over runs packaged once. -/
namespace Sys2Proof.Machine

/-- A step that answers a next state executed the operation at the front of the command port. -/
theorem step_cases (s t : State) (h : step s = .next t) :
    ∃ i rest, decode s.commands = .instr i rest ∧ exec i (writeCommands rest s) = .next t := by
  unfold step fetch at h
  split at h
  · next i rest hd => exact ⟨i, rest, hd, h⟩
  · cases h

/-- A step that is refused found no operation there. -/
theorem step_refused_cases (s : State) (r : Refusal) (h : step s = .refused r)
    (hn : ∀ i t, exec i t ≠ .refused r) : ∃ why, decode s.commands = .invalid why ∧ r = .invalidCommand why := by
  unfold step fetch at h
  split at h
  · exact absurd h (hn _ _)
  · next why hd => cases h; exact ⟨why, hd, rfl⟩

/-- What every step keeps holds of every state reached. -/
theorem reaches_keeps {P : State → Prop} (hstep : ∀ s t, P s → step s = .next t → P t) {s t : State}
    (hr : Reaches s t) (hs : P s) : P t := by
  induction hr with
  | refl => exact hs
  | next _ h ih => exact hstep _ _ ih h

/-- One more call commands what `Commanded.after` says. -/
theorem commanded_append (xs ys : List TCall) : commanded (xs ++ ys) = ys.foldl Commanded.after (commanded xs) := by
  simp [commanded, List.foldl_append]

end Sys2Proof.Machine
end

