-- ==== Sys2Proof/Tests/Slice0.lean ====
section
/-! SUPPORT. Tests. Every expected value is one of spec/95_test_vectors.md (the section is named) or is worked out by hand
from the rule named. The `witness_` theorems show, for each statement of Certificates/Slice0/Obligations.lean that has
hypotheses, a concrete state and operands that meet all of them, clause by clause and at the ends of the ranges. -/
namespace Sys2Proof.Tests
open Sys2Proof.Machine

/-! One thread elaborates this file: the tests are small, and threads cost more memory than they save time. -/
set_option Elab.async false

/-! ### Helpers -/

/-- `TESTCFG` of spec/95_test_vectors.md. -/
def testParams : Params := ⟨16, 0x0000, 0x0000, 8, true, 0x00, 1⟩

/-- Hardware reset of `TESTCFG`. -/
def fresh : State := State.resetOf testParams

/-- The state V2.7 starts from, without the calls made on the way. -/
def base : State := { fresh with cfg := { fresh.cfg with maxPacketLength := 4 } }

/-- A state with these buffer contents and this flag (V2.5). -/
def holding (buf : List Byte) (rf : Bool) : State := { base with buf := buf, receivedFlag := rf }

/-- The same with these answers to come from the transceiver. -/
def hearing (available : List Bool) (bytes : List Byte) (s : State) : State :=
  { s with answers := ⟨available, bytes, 0⟩ }

/-- The same with these commands presented. -/
def commandedTo (items : List PortItem) (s : State) : State := { s with commands := items }

/-- The state after an instruction. -/
def run (i : Instr) (s : State) : State :=
  match exec i s with
  | .next t => t
  | .fault _ => s
  | .refused _ => s

/-- Every instruction answers a next state, so `run` is it. -/
theorem exec_eq_next_run (i : Instr) (s : State) : exec i s = .next (run i s) := by cases i <;> rfl

/-- `W` of V2.7, the wire frame of `[DE AD BE EF]`. -/
def wire : List Byte := [0x7B, 0xB5, 0x7D, 0xF7, 0xA8, 0x98]

/-- `W'` of V2.7, `W` with one bit inverted. -/
def badWire : List Byte := [0x7B, 0xB5, 0x7D, 0xF7, 0xA8, 0x99]

/-- The sixteen bytes of V2.5 case 4. -/
def sixteen : List Byte :=
  [0xA0, 0xA1, 0xA2, 0xA3, 0xA4, 0xA5, 0xA6, 0xA7, 0xA8, 0xA9, 0xAA, 0xAB, 0xAC, 0xAD, 0xAE, 0xAF]

/-! ### WellFormed -/

/-- 30_encoding.md R43: too few and too many data bytes are refused by the check, the right number is not. -/
theorem test_wellFormed_refuses_wrong_data_length :
    wellFormed (.writeFIFO 3 [0x11, 0x22]) = false ∧ wellFormed (.writeFIFO 0 [0x11]) = false ∧
    wellFormed (.writeFIFO 3 [0x11, 0x22, 0x33]) = true := ⟨rfl, rfl, rfl⟩

/-! ### Decoding and encoding (V2.9) -/

theorem test_decode_open : decode [.word 0x0000000000] = .instr .openRadio [] := rfl

/-- Bit by bit: opcode 00000001, a = 0x1234, b = 0xABCD. -/
theorem test_decode_setSyncword :
    decode [.word 0b0000000100010010001101001010101111001101] = .instr (.setSyncword 0x1234 0xABCD) [] := rfl

theorem test_decode_setMaxPacketLength :
    decode [.word 0x0200000004] = .instr (.setMaxPacketLength 4) [] ∧
    decode [.word 0x02FFFFFF04] = .instr (.setMaxPacketLength 4) [] := ⟨rfl, rfl⟩

theorem test_decode_setCRC :
    decode [.word 0x0300000001] = .instr (.setCRC true) [] ∧
    decode [.word 0x0300000002] = .instr (.setCRC false) [] := ⟨rfl, rfl⟩

/-- Bit by bit: opcode 00000100, a = 0, b = 0x0107, of which the channel is the low byte. -/
theorem test_decode_receive :
    decode [.word 0b0000010000000000000000000000000100000111] = .instr (.receive 0x07) [] := rfl

theorem test_decode_readFIFO : decode [.word 0x0500000010] = .instr (.readFIFO 16) [] := rfl

/-- The three data bytes are taken, what follows them stays. -/
theorem test_decode_writeFIFO :
    decode [.word 0x0600000003, .data 0x11, .data 0x22, .data 0x33, .word 0x0000000000] =
      .instr (.writeFIFO 3 [0x11, 0x22, 0x33]) [.word 0x0000000000] ∧
    decode [.word 0x0600000000] = .instr (.writeFIFO 0 []) [] := ⟨rfl, rfl⟩

theorem test_decode_transmit : decode [.word 0x0700000000] = .instr (.transmit 0) [] := rfl

theorem test_decode_preamble_trailer :
    decode [.word 0x0800000003] = .instr (.setPreambleLength 3) [] ∧
    decode [.word 0x0900000004] = .instr (.setTrailerLength 4) [] := ⟨rfl, rfl⟩

theorem test_decode_refuses_by_name :
    decode [.word 0x0A00000000] = .invalid (.reservedOpcode 0x0A) ∧
    decode [.word 0x1000000000] = .invalid (.reservedOpcode 0x10) ∧
    decode [.word 0xFF00000000] = .invalid (.reservedOpcode 0xFF) ∧
    decode [.word 0x0600000003, .data 0x11, .data 0x22] = .invalid (.shortData 3) := ⟨rfl, rfl, rfl, rfl⟩

theorem test_encode_words :
    encode (.setSyncword 0x1234 0xABCD) = [.word 0x011234ABCD] ∧
    encode (.receive 0x07) = [.word 0x0400000007] ∧
    encode (.writeFIFO 2 [0x55, 0x66]) = [.word 0x0600000002, .data 0x55, .data 0x66] := ⟨rfl, rfl, rfl⟩

theorem test_decodeTableWord :
    decodeTableWord 40 0x0600000000 = some (.writeFIFO 0 []) ∧
    decodeTableWord 40 0x0600000002 = some (.writeFIFO 2 [0x00, 0x00]) ∧
    decodeTableWord 56 0x2211_0600000002 = some (.writeFIFO 2 [0x11, 0x22]) ∧
    decodeTableWord 40 0x0A00000000 = none := ⟨rfl, rfl, rfl, rfl⟩

/-! ### The pure units (V2.1 to V2.4) -/

theorem test_reverse : reverse 0xDE = 0x7B ∧ reverse 0x12 = 0x48 ∧ reverse 0x01 = 0x80 := ⟨rfl, rfl, rfl⟩

theorem test_crc :
    crcBit 0x1189 true = 0x08C4 ∧ crcByte 0xABCD 0x5A = 0xE09D ∧
    crc16 [0xDE, 0xAD, 0xBE, 0xEF] = 0x1915 ∧
    crc16 [0x31, 0x32, 0x33, 0x34, 0x35, 0x36, 0x37, 0x38, 0x39] = 0x2189 := by decide +kernel

theorem test_deriveAddress :
    deriveAddress 0x147A 0x258B = ⟨0x4A, 0x1A, 0x8D, 0xE2, 0x55⟩ ∧
    deriveAddress 0x0000 0x8000 = ⟨0x15, 0x00, 0x00, 0x00, 0x50⟩ := by decide +kernel

theorem test_frame :
    frameEncode [0x11, 0x22, 0x33] = [0x88, 0x44, 0xCC, 0x4B, 0x33] ∧
    frameDecode wire true = some [0xDE, 0xAD, 0xBE, 0xEF] ∧
    frameDecode badWire true = none ∧
    frameDecode badWire false = some [0xDE, 0xAD, 0xBE, 0xEF, 0x15, 0x99] := by decide +kernel

/-! ### One step of each operation -/

/-- V2.6 case 20: a used instance goes back to its reset values, and `open` emits T0 to T8. -/
theorem test_open_reinitialises :
    (run .openRadio (holding [1, 2, 3] true)).registers = fresh.registers ∧
    (run .openRadio (holding [1, 2, 3] true)).trace =
      [.begin, .setAutoAck false, .setPowerLevel .powerMax, .setDataRate .rateHigh, .disableHardwareCRC,
       .setAddressWidth 5, .setPayloadSize 10, .openWritingPipe ⟨0x0A, 0x00, 0x00, 0x00, 0x50⟩,
       .openReadingPipe 1 ⟨0x0A, 0x00, 0x00, 0x00, 0x50⟩] := by decide +kernel

/-- V2.6 case 3: one half changed (payload size of `base` is 6). -/
theorem test_setSyncword_one_half_changed :
    (run (.setSyncword 0x1234 0x0000) base).trace =
      [.setPayloadSize 6, .openWritingPipe ⟨0x0A, 0x00, 0x80, 0xC4, 0x52⟩,
       .openReadingPipe 1 ⟨0x0A, 0x00, 0x80, 0xC4, 0x52⟩] := by decide +kernel

/-- V2.6 case 2: unchanged, no call. -/
theorem test_setSyncword_unchanged : (run (.setSyncword 0x0000 0x0000) base).trace = [] := by decide +kernel

/-- V2.6 case 11: payload size 257, no wrap. -/
theorem test_setMaxPacketLength_255 :
    (run (.setMaxPacketLength 255) base).trace =
      [.setPayloadSize 257, .openWritingPipe ⟨0x0A, 0x00, 0x00, 0x00, 0x50⟩,
       .openReadingPipe 1 ⟨0x0A, 0x00, 0x00, 0x00, 0x50⟩] ∧
    (run (.setMaxPacketLength 255) base).cfg.maxPacketLength = 255 := by decide +kernel

/-- V2.6 case 9: unchanged, no call. -/
theorem test_setMaxPacketLength_unchanged : (run (.setMaxPacketLength 4) base).trace = [] := by decide +kernel

/-- V2.6 cases 12 to 14: the operand is stored, not inverted. -/
theorem test_setCRC :
    (run (.setCRC false) base).cfg.crcEnabled = false ∧
    (run (.setCRC false) (run (.setCRC false) base)).cfg.crcEnabled = false := ⟨rfl, rfl⟩

/-- V2.6 cases 15 and 16. -/
theorem test_preamble_and_trailer_do_nothing :
    (run (.setPreambleLength 3) (holding [9] true)).registers = (holding [9] true).registers ∧
    (run (.setTrailerLength 4) (holding [9] true)).registers = (holding [9] true).registers := ⟨rfl, rfl⟩

/-- V2.5 case 5: twenty bytes offered, sixteen kept. -/
theorem test_writeFIFO_truncates :
    (run (.writeFIFO 20 (sixteen ++ [0xB0, 0xB1, 0xB2, 0xB3])) base).buf = sixteen ∧
    (run (.writeFIFO 20 (sixteen ++ [0xB0, 0xB1, 0xB2, 0xB3])) base).responses = [⟨16, 0, []⟩] := by decide +kernel

/-- V2.5 case 3: an empty write clears the buffer and the flag. -/
theorem test_writeFIFO_empty :
    (run (.writeFIFO 0 []) (holding [1, 2, 3] true)).registers = base.registers := by decide +kernel

/-- V2.5 case 7a: order kept, remaining length returned. -/
theorem test_readFIFO_partial :
    (run (.readFIFO 1) (holding [0x11, 0x22, 0x33] false)).buf = [0x22, 0x33] ∧
    (run (.readFIFO 1) (holding [0x11, 0x22, 0x33] false)).responses = [⟨2, 1, [0x11]⟩] := by decide +kernel

/-- V2.5 case 8: draining a received packet leaves the flag set. -/
theorem test_readFIFO_keeps_flag :
    (run (.readFIFO 4) (holding [0xDE, 0xAD, 0xBE, 0xEF] true)).receivedFlag = true ∧
    (run (.readFIFO 4) (holding [0xDE, 0xAD, 0xBE, 0xEF] true)).responses =
      [⟨0, 4, [0xDE, 0xAD, 0xBE, 0xEF]⟩] := by decide +kernel

/-- V2.7 case 5 (on channel 5 as in case 10): accepted over the outbound packet. -/
theorem test_receive_accepts :
    (run (.receive 5) (hearing [true] wire (holding [0x55, 0x66] false))).registers =
      ⟨{ base.cfg with channel := 5 }, [0xDE, 0xAD, 0xBE, 0xEF], true, true⟩ ∧
    (run (.receive 5) (hearing [true] wire (holding [0x55, 0x66] false))).trace =
      [.setChannel 5, .startListening, .isDataAvailable, .readBytes 6] ∧
    (run (.receive 5) (hearing [true] wire (holding [0x55, 0x66] false))).responses = [⟨4, 0, []⟩] := by decide +kernel

/-- V2.7 case 9: a bad CRC while the flag is set: the old length is returned. -/
theorem test_receive_bad_crc :
    (run (.receive 0) (hearing [true] badWire (holding [0xAD, 0xBE, 0xEF] true))).buf = [0xAD, 0xBE, 0xEF] ∧
    (run (.receive 0) (hearing [true] badWire (holding [0xAD, 0xBE, 0xEF] true))).answers = ⟨[], [], 0⟩ ∧
    (run (.receive 0) (hearing [true] badWire (holding [0xAD, 0xBE, 0xEF] true))).responses = [⟨3, 0, []⟩] := by
  decide +kernel

/-- V2.8 case 4 (channel 0x4A): `setChannel` after `stopListening`, before the three writes; the buffer stays. -/
theorem test_transmit :
    (run (.transmit 0x4A) (holding [0xA5] false)).trace =
      [.stopListening, .setChannel 0x4A, .writeBytes [0xA5, 0xE5, 0x4F] 3, .writeBytes [0xA5, 0xE5, 0x4F] 3,
       .writeBytes [0xA5, 0xE5, 0x4F] 3] ∧
    (run (.transmit 0x4A) (holding [0xA5] false)).buf = [0xA5] := by decide +kernel

/-- V2.8 case 1: the empty buffer is framed as `00 00`. -/
theorem test_transmit_empty :
    (run (.transmit 0) base).trace =
      [.stopListening, .writeBytes [0x00, 0x00] 2, .writeBytes [0x00, 0x00] 2, .writeBytes [0x00, 0x00] 2] := by
  decide +kernel

/-! ### The step -/

/-- From `State.reset` itself: the presented word is the next operation, and it is taken from the port. -/
theorem test_step_runs_fetched_word :
    step (State.reset.withFetchWord 40 0x0300000001) = exec (.setCRC true) State.reset := rfl

/-- 60_exceptions.md R94: a reserved opcode is refused by name. -/
theorem test_step_refuses_reserved :
    step (State.reset.withFetchWord 40 0x0A00000000) = .refused (.invalidCommand (.reservedOpcode 0x0A)) := rfl

/-- 30_encoding.md R44 (c): nothing presented, no step. -/
theorem test_step_refuses_empty_port : step fresh = .refused (.invalidCommand .noCommand) := rfl

/-! ### Witnesses: the pure units -/

/-- The first and the last bit of a byte; also for AddressBytesHaveTheNibbleLayout. -/
theorem witness_ReverseExchangesBitsEndToEnd : 0 < 8 ∧ 7 < 8 := by decide

/-- Both values of the selecting bit; the first and the last bit position. -/
theorem witness_CrcBitShiftsAndConditionallyXors :
    (true ^^ (0x0000 : Half).getLsbD 0) = true ∧ (false ^^ (0xFFFF : Half).getLsbD 0) = true ∧
    (true ^^ (0x0001 : Half).getLsbD 0) = false := ⟨rfl, rfl, rfl⟩

theorem witness_CrcIsLinearOverXor :
    ([0xDE, 0xAD, 0xBE, 0xEF] : List Byte).length = ([0x11, 0x22, 0x33, 0x44] : List Byte).length ∧
    ([] : List Byte).length = ([] : List Byte).length := ⟨rfl, rfl⟩

/-- The first bit of the first byte and the last bit of the last. -/
theorem witness_CrcDetectsEverySingleBitFlip :
    (0 < ([0xDE, 0xAD, 0xBE, 0xEF] : List Byte).length ∧ 0 < 8) ∧
    (3 < ([0xDE, 0xAD, 0xBE, 0xEF] : List Byte).length ∧ 7 < 8) := by decide

theorem witness_DistinctSyncwordsGiveDistinctAddresses :
    deriveAddress 0x1234 0xABCD = deriveAddress 0x1234 0xABCD := rfl

/-- The premise with a good trailer (the empty packet and one of four bytes), and with either trailer byte wrong. -/
theorem witness_FrameDecodeChecksTheLastTwoBytes :
    (([0x00, 0x00] : List Byte).map reverse = [] ++ [0x00, 0x00] ∧
      (0x00 : Byte) = (crc16 []).extractLsb' 0 8 ∧ (0x00 : Byte) = (crc16 []).extractLsb' 8 8) ∧
    (wire.map reverse = [0xDE, 0xAD, 0xBE, 0xEF] ++ [0x15, 0x19] ∧
      (0x15 : Byte) = (crc16 [0xDE, 0xAD, 0xBE, 0xEF]).extractLsb' 0 8 ∧
      (0x19 : Byte) = (crc16 [0xDE, 0xAD, 0xBE, 0xEF]).extractLsb' 8 8) ∧
    (badWire.map reverse = [0xDE, 0xAD, 0xBE, 0xEF] ++ [0x15, 0x99] ∧
      (0x99 : Byte) ≠ (crc16 [0xDE, 0xAD, 0xBE, 0xEF]).extractLsb' 8 8) ∧
    (([0x80, 0x00] : List Byte).map reverse = [] ++ [0x01, 0x00] ∧
      (0x01 : Byte) ≠ (crc16 []).extractLsb' 0 8) := by decide +kernel

/-- The last bit of the trailer of the empty packet's frame, and the first bit of a payload. -/
theorem witness_SingleBitErrorInAFrameIsRejected :
    (1 < (frameEncode []).length ∧ 7 < 8) ∧ (0 < (frameEncode [0xDE, 0xAD, 0xBE, 0xEF]).length ∧ 0 < 8) := by
  decide +kernel

/-! ### Witnesses: encoding and the step -/

theorem witness_DecodeOfEncodeIsTheInstruction :
    WellFormed (.writeFIFO 0 []) ∧ WellFormed (.writeFIFO 3 [0x11, 0x22, 0x33]) ∧ WellFormed (.setSyncword 0xFFFF 0) :=
  ⟨rfl, rfl, rfl⟩

theorem witness_DecodedInstructionIsWellFormed :
    decode [.word 0x06FFFF0001, .data 0x42, .data 0x43] = .instr (.writeFIFO 1 [0x42]) [.data 0x43] := rfl

theorem witness_UnnamedOperandBitsAreIgnored :
    (0x02FFFFFF04 : CommandWord) &&& namedBits ((0x02FFFFFF04 : CommandWord).extractLsb' 32 8) =
      0x0200000004 &&& namedBits ((0x02FFFFFF04 : CommandWord).extractLsb' 32 8) := rfl

/-- The first and the last reserved opcode. -/
theorem witness_ReservedOpcodeIsRefused :
    ((commandedTo [.word 0x0A00000000] fresh).commands = .word 0x0A00000000 :: [] ∧
      (0x0A : Byte) ≤ (0x0A00000000 : CommandWord).extractLsb' 32 8) ∧
    ((commandedTo [.word 0xFF00000000] fresh).commands = .word 0xFF00000000 :: [] ∧
      (0x0A : Byte) ≤ (0xFF00000000 : CommandWord).extractLsb' 32 8) := by decide +kernel

/-- One byte short with nothing after it, and with a word after it. -/
theorem witness_WriteWithTooFewDataBytesIsRefused :
    ((0x0600000001 : CommandWord).extractLsb' 32 8 = (0x06 : Byte) ∧
      ([] : List Byte).length < ((0x0600000001 : CommandWord).extractLsb' 0 16).toNat ∧
      (commandedTo [.word 0x0600000001] fresh).commands = .word 0x0600000001 :: (([] : List Byte).map .data ++ [])) ∧
    (([0x11, 0x22] : List Byte).length < ((0x0600000003 : CommandWord).extractLsb' 0 16).toNat ∧
      (commandedTo [.word 0x0600000003, .data 0x11, .data 0x22, .word 0x0000000000] fresh).commands =
        .word 0x0600000003 :: (([0x11, 0x22] : List Byte).map .data ++ [.word 0x0000000000])) := by decide +kernel

theorem witness_StepRunsTheDecodedInstruction :
    decode (commandedTo [.word 0x0500000010, .word 0x0000000000] fresh).commands =
      .instr (.readFIFO 16) [.word 0x0000000000] ∧
    WellFormed (.writeFIFO 2 [0x55, 0x66]) ∧
    (commandedTo [.word 0x0600000002, .data 0x55, .data 0x66] fresh).commands =
      encode (.writeFIFO 2 [0x55, 0x66]) ++ [] := ⟨rfl, rfl, rfl⟩

/-! ### Witnesses: reset and the buffer -/

/-- The smallest and the largest capacity. -/
theorem witness_ResetMeetsTheInvariant :
    ({ testParams with cap := 1 } : Params).Wf ∧ ({ testParams with cap := 65535 } : Params).Wf := by
  decide +kernel

/-- Also for ReadAfterWriteGivesBackTheData: no data, and more data than the capacity. -/
theorem witness_WriteFifoReplacesTheBuffer :
    WellFormed (.writeFIFO 0 []) ∧ WellFormed (.writeFIFO 17 (0x00 :: sixteen)) := ⟨rfl, rfl⟩

/-- Fewer bytes asked for than are there, and exactly as many. -/
theorem witness_SuccessiveReadsDrainInOrder :
    (holding [0x11, 0x22, 0x33] false).buf.length ≤ (([1, 2] : List Half).map (fun n => n.toNat)).sum ∧
    ¬ (holding [0x11, 0x22, 0x33] false).buf.length ≤ (([1, 1] : List Half).map (fun n => n.toNat)).sum := by
  decide +kernel

/-! ### Witnesses: receive -/

theorem witness_ReceiveWithoutDataOnlyListens :
    (hearing [false] [] base).dataComing = false ∧ (hearing [false] [] (holding [9] true)).dataComing = false :=
  ⟨rfl, rfl⟩

/-- A frame of four bytes, and the empty packet. -/
theorem witness_ReceiveStoresAFrameWithAGoodCrc :
    ((hearing [true] wire base).dataComing = true ∧ (hearing [true] wire base).cfg.crcEnabled = true ∧
      (hearing [true] wire base).frameComing.map reverse = [0xDE, 0xAD, 0xBE, 0xEF] ++
        [(crc16 [0xDE, 0xAD, 0xBE, 0xEF]).extractLsb' 0 8, (crc16 [0xDE, 0xAD, 0xBE, 0xEF]).extractLsb' 8 8]) ∧
    ((run (.setMaxPacketLength 0) (hearing [true] [0x00, 0x00] base)).dataComing = true ∧
      (run (.setMaxPacketLength 0) (hearing [true] [0x00, 0x00] base)).frameComing.map reverse =
        [] ++ [(crc16 []).extractLsb' 0 8, (crc16 []).extractLsb' 8 8]) := by decide +kernel

theorem witness_ReceiveDropsAFrameWithABadCrc :
    (hearing [true] badWire base).dataComing = true ∧ (hearing [true] badWire base).cfg.crcEnabled = true ∧
    (hearing [true] badWire base).frameComing.map reverse = [0xDE, 0xAD, 0xBE, 0xEF] ++ [0x15, 0x99] ∧
    (0x99 : Byte) ≠ (crc16 [0xDE, 0xAD, 0xBE, 0xEF]).extractLsb' 8 8 := by decide +kernel

theorem witness_ReceiveWithoutValidationKeepsEveryByte :
    (run (.setCRC false) (hearing [true] badWire base)).dataComing = true ∧
    (run (.setCRC false) (hearing [true] badWire base)).cfg.crcEnabled = false := ⟨rfl, rfl⟩

/-! ### Witnesses: whole-machine rules -/

/-- `fresh` meets the invariant, and a step from it (with `open` presented) answers a next state. -/
theorem witness_StepKeepsTheInvariant :
    (commandedTo [.word 0x0000000000] fresh).Inv ∧
    ∃ t, step (commandedTo [.word 0x0000000000] fresh) = .next t :=
  ⟨⟨by decide, rfl, nofun, nofun⟩, _, rfl⟩

/-- The registers agree with the trace after `open`, and a step from there (a changed maximum length) answers a next state. -/
theorem witness_StepKeepsRegistersMirroringTheCallTrace :
    (commandedTo [.word 0x0200000004] (run .openRadio fresh)).Mirrors ∧
    ∃ t, step (commandedTo [.word 0x0200000004] (run .openRadio fresh)) = .next t :=
  ⟨⟨fun _ h => (Option.some.inj h).symm, fun _ h => (Option.some.inj h).symm, fun _ h => (Option.some.inj h).symm, rfl,
    rfl⟩, _, rfl⟩

theorem witness_TransceiverStaysConsistentAfterOpen :
    exec .openRadio base = .next (run .openRadio base) ∧
    (commandedTo [.word 0x011234ABCD] (run .openRadio base)).Programmed ∧
    ∃ t, step (commandedTo [.word 0x011234ABCD] (run .openRadio base)) = .next t :=
  ⟨rfl, ⟨rfl, rfl, rfl⟩, _, rfl⟩

/-- Each register does change under a writer of it. -/
theorem witness_RegistersChangeOnlyUnderTheirWriters :
    (run (.setSyncword 0x0001 0x0000) base).cfg.syncword0 ≠ base.cfg.syncword0 ∧
    (run (.setSyncword 0x0000 0x8000) base).cfg.syncword3 ≠ base.cfg.syncword3 ∧
    (run (.setMaxPacketLength 5) base).cfg.maxPacketLength ≠ base.cfg.maxPacketLength ∧
    (run (.setCRC false) base).cfg.crcEnabled ≠ base.cfg.crcEnabled ∧
    (run (.transmit 1) base).cfg.channel ≠ base.cfg.channel ∧
    (run (.readFIFO 1) (holding [9] true)).buf ≠ (holding [9] true).buf ∧
    (run (.writeFIFO 0 []) (holding [9] true)).receivedFlag ≠ (holding [9] true).receivedFlag ∧
    (run (.receive 0) (hearing [false] [] base)).listening ≠ base.listening ∧
    (run (.receive 0) (hearing [false] [] base)).answers ≠ (hearing [false] [] base).answers := by decide +kernel

/-- An accepted and a rejected frame, and an operation other than `receive`; also for OnlyReceiveReadsCrcEnabled. -/
theorem witness_ReceivedFlagIsSetOnlyByAnAcceptedFrame :
    (hearing [true] wire base).acceptsFrame = true ∧
    exec (.receive 0) (hearing [true] wire base) = .next (run (.receive 0) (hearing [true] wire base)) ∧
    (hearing [true] badWire base).acceptsFrame = false ∧
    exec (.receive 0) (hearing [true] badWire base) = .next (run (.receive 0) (hearing [true] badWire base)) ∧
    (∀ c, Instr.transmit 0 ≠ .receive c) ∧ exec (.transmit 0) base = .next (run (.transmit 0) base) :=
  ⟨by decide +kernel, rfl, by decide +kernel, rfl, nofun, rfl⟩

/-- Every arm of the statements that match on the instruction, by a state it goes on from: NoOperationReadsListening,
EachOperationEmitsItsOwnCalls and StateViewFollowsTheTransitionTable. -/
theorem witness_EachOperationEmitsItsOwnCalls :
    (∃ t, exec .openRadio base = .next t) ∧ (∃ t, exec (.setSyncword 0x1234 0xABCD) base = .next t) ∧
    (∃ t, exec (.setMaxPacketLength 255) base = .next t) ∧ (∃ t, exec (.setCRC false) base = .next t) ∧
    (∃ t, exec (.receive 7) (hearing [true] wire base) = .next t) ∧ (∃ t, exec (.readFIFO 0xFFFF) base = .next t) ∧
    (∃ t, exec (.writeFIFO 0 []) base = .next t) ∧ (∃ t, exec (.transmit 0) base = .next t) ∧
    (∃ t, exec (.setPreambleLength 0) base = .next t) ∧ (∃ t, exec (.setTrailerLength 255) base = .next t) :=
  ⟨⟨_, rfl⟩, ⟨_, rfl⟩, ⟨_, rfl⟩, ⟨_, rfl⟩, ⟨_, rfl⟩, ⟨_, rfl⟩, ⟨_, rfl⟩, ⟨_, rfl⟩, ⟨_, rfl⟩, ⟨_, rfl⟩⟩

/-- One more than the capacity written, one more than the length read, a frame one byte longer than the capacity. -/
theorem witness_OversizedRequestsAreClamped :
    (WellFormed (.writeFIFO 17 (0x00 :: sixteen)) ∧ base.params.cap < (17 : Half).toNat) ∧
    ((holding [9] false).buf.length < (2 : Half).toNat) ∧
    ({ hearing [true] wire base with params := { testParams with cap := 3 } } : State).dataComing = true ∧
    frameDecode ({ hearing [true] wire base with params := { testParams with cap := 3 } } : State).frameComing true =
      some [0xDE, 0xAD, 0xBE, 0xEF] ∧
    3 < ([0xDE, 0xAD, 0xBE, 0xEF] : List Byte).length := by decide +kernel

/-- The state after the write of V2.7 case 3, with a rejected frame to come. -/
def overwritten : State := run (.writeFIFO 2 [0x55, 0x66]) (hearing [true] badWire (holding [9] true))

/-- The receive directly after the write, with no data and with a rejected frame; and one after a rejected `receive`, a
partial read and a new answer of the transceiver. -/
theorem witness_WriteDestroysAnUnconsumedPacket :
    WellFormed (.writeFIFO 2 [0x55, 0x66]) ∧
    (run (.writeFIFO 2 [0x55, 0x66]) (hearing [false] [] (holding [9] true))).acceptsFrame = false ∧
    overwritten.acceptsFrame = false ∧
    RunsWithoutAccepting overwritten (hearing [false] [] (run (.readFIFO 1) (run (.receive 0) overwritten))) ∧
    (hearing [false] [] (run (.readFIFO 1) (run (.receive 0) overwritten))).acceptsFrame = false :=
  have hno : overwritten.acceptsFrame = false := by decide +kernel
  ⟨rfl, rfl, hno,
    .ports _ ⟨[false], [], 0⟩ (.operation (.readFIFO 1)
      (.operation (.receive 0) (.refl _) (fun _ _ => hno) (exec_eq_next_run _ _)) nofun (exec_eq_next_run _ _)),
    by decide +kernel⟩

theorem witness_RepeatedWriteOrTransmitChangesNoRegister :
    (∃ t u, exec (.writeFIFO 1 [0x77]) (holding [9] true) = .next t ∧ exec (.writeFIFO 1 [0x77]) t = .next u) ∧
    (∃ t u, exec (.transmit 5) (holding [9] true) = .next t ∧ exec (.transmit 5) t = .next u) :=
  ⟨⟨_, _, rfl, rfl⟩, _, _, rfl, rfl⟩

/-- A receiver of V1.10 with these parameters. -/
def receiver (cap : Nat) (crc : Bool) : State :=
  run (.setCRC crc) { hearing [true] wire base with params := { testParams with cap := cap } }

/-- V1.10, each clause with the smallest receiver it allows: capacity 4 with validation, 6 without. -/
theorem witness_TransmittedPacketIsReceivedIntact :
    exec (.transmit 0) (holding [0xDE, 0xAD, 0xBE, 0xEF] false) =
      .next (run (.transmit 0) (holding [0xDE, 0xAD, 0xBE, 0xEF] false)) ∧
    (run (.transmit 0) (holding [0xDE, 0xAD, 0xBE, 0xEF] false)).trace =
      [.stopListening] ++ List.replicate 3 (.writeBytes wire 6) ∧
    ((receiver 4 true).answers.available = true :: [] ∧ (receiver 4 true).answers.bytes = wire ++ [] ∧
      (receiver 4 true).cfg.maxPacketLength.toNat = 4 ∧ (receiver 4 true).cfg.crcEnabled = true ∧
      4 ≤ (receiver 4 true).params.cap) ∧
    ((receiver 6 false).answers.available = true :: [] ∧ (receiver 6 false).answers.bytes = wire ++ [] ∧
      (receiver 6 false).cfg.maxPacketLength.toNat = 4 ∧ (receiver 6 false).cfg.crcEnabled = false ∧
      4 + 2 ≤ (receiver 6 false).params.cap) :=
  ⟨rfl, by decide +kernel, by decide +kernel⟩

end Sys2Proof.Tests
end

section
/-! PROOFS. `receivedFlag` (spec/10_state.md R25): who writes it and who reads it. -/
namespace Sys2Proof.Machine

/-! ### What shared operations do to the flag -/

@[simp] theorem recomputeIf_receivedFlag (b : Bool) (s : State) : (recomputeIf b s).receivedFlag = s.receivedFlag := by
  rw [recomputeIf_eq, emitAll_receivedFlag]

@[simp] theorem selectChannel_receivedFlag (c : Byte) (s : State) : (selectChannel c s).receivedFlag = s.receivedFlag := by
  rw [selectChannel_eq, emitAll_receivedFlag, writeChannel_receivedFlag]

theorem transmitBody_receivedFlag (c : Byte) (s : State) : (transmitBody c s).receivedFlag = s.receivedFlag := by
  simp [transmitBody]

/-- The response of an operation leaves the flag as it is. -/
theorem receivedFlag_of_respond {r : Response} {u t : State} (h : respond r u = .next t) :
    t.receivedFlag = u.receivedFlag := by
  obtain rfl := (respond_next_iff r u t).mp h
  rfl

/-! ### `receive` sets the flag exactly when it accepts a frame -/

/-- Whether a frame is accepted depends on the answer port and on two registers of the configuration alone. -/
theorem acceptsFrame_congr {s t : State} (ha : t.answers = s.answers)
    (hn : t.cfg.maxPacketLength = s.cfg.maxPacketLength) (hc : t.cfg.crcEnabled = s.cfg.crcEnabled) :
    t.acceptsFrame = s.acceptsFrame := by
  simp [State.acceptsFrame, State.dataComing, State.frameComing, RadioConfiguration.payloadSize, ha, hn, hc]

/-- One poll sets the flag when it accepts a frame and otherwise keeps it. -/
theorem pollOnce_receivedFlag (s : State) : (pollOnce s).receivedFlag = (s.acceptsFrame || s.receivedFlag) := by
  obtain ⟨hno, hs⟩ | ⟨hdata, r, a, hr, hs⟩ := pollOnce_cases s
  · simp [hs, State.acceptsFrame, State.dataComing, hno]
  · have haccepts : s.acceptsFrame = (frameDecode r s.cfg.crcEnabled).isSome := by
      simp [State.acceptsFrame, State.dataComing, State.frameComing, hdata, hr]
    obtain ⟨hrejected, hs⟩ | ⟨payload, haccepted, hs⟩ := hs
    · simp [hs, haccepts, hrejected]
    · simp [hs, haccepts, haccepted, acceptPacket_eq]

theorem receiveBody_receivedFlag (c : Byte) (s : State) :
    (receiveBody c s).receivedFlag = (s.acceptsFrame || s.receivedFlag) := by
  have haccepts : (writeListening true (emit .startListening (selectChannel c s))).acceptsFrame = s.acceptsFrame :=
    acceptsFrame_congr (by simp [selectChannel_eq]) (by simp [selectChannel_eq]) (by simp [selectChannel_eq])
  simp [receiveBody, pollOnce_receivedFlag, haccepts]

/-! ### No operation but `receive` reads the flag: writing it first or last is the same -/

theorem recomputeIf_writeReceivedFlag (b v : Bool) (s : State) :
    recomputeIf b (writeReceivedFlag v s) = writeReceivedFlag v (recomputeIf b s) := by
  cases b <;> rfl

theorem selectChannel_writeReceivedFlag (c : Byte) (v : Bool) (s : State) :
    selectChannel c (writeReceivedFlag v s) = writeReceivedFlag v (selectChannel c s) := by
  rw [selectChannel_eq, selectChannel_eq]
  rfl

theorem transmitBody_writeReceivedFlag (c : Byte) (v : Bool) (s : State) :
    transmitBody c (writeReceivedFlag v s) = writeReceivedFlag v (transmitBody c s) := by
  have hselect := selectChannel_writeReceivedFlag c v (writeListening false (emit .stopListening s))
  exact congrArg (fun u => emitAll (transmitCalls u) u) hselect

/-- Two states that differ in the flag at most give the same response and next states that differ in the flag at most. -/
theorem respond_keeps_flag_difference {r : Response} {u u' t : State} {v : Bool} (hu : u' = writeReceivedFlag v u)
    (h : respond r u = .next t) :
    ∃ t', respond r u' = .next t' ∧ writeReceivedFlag t.receivedFlag t' = t := by
  obtain rfl := (respond_next_iff r u t).mp h
  subst hu
  exact ⟨_, rfl, rfl⟩

/-- Every instruction but `receive`, run with the flag at any other value, ends in the same state but for the flag. -/
theorem exec_writeReceivedFlag (i : Instr) (s t : State) (v : Bool) (hi : ∀ c, i ≠ .receive c) (h : exec i s = .next t) :
    ∃ t', exec i (writeReceivedFlag v s) = .next t' ∧ writeReceivedFlag t.receivedFlag t' = t := by
  cases i with
  | openRadio => exact ⟨t, h, rfl⟩
  | setSyncword sw0 sw3 =>
    exact respond_keeps_flag_difference (recomputeIf_writeReceivedFlag _ v (writeSyncwords sw0 sw3 s)) h
  | setMaxPacketLength n =>
    exact respond_keeps_flag_difference (recomputeIf_writeReceivedFlag _ v (writeMaxPacketLength n s)) h
  | setCRC => exact respond_keeps_flag_difference rfl h
  | receive c => exact absurd rfl (hi c)
  | readFIFO => exact respond_keeps_flag_difference rfl h
  | writeFIFO => exact ⟨t, h, rfl⟩
  | transmit c => exact respond_keeps_flag_difference (transmitBody_writeReceivedFlag c v s) h
  | setPreambleLength => exact respond_keeps_flag_difference rfl h
  | setTrailerLength => exact respond_keeps_flag_difference rfl h

/-- Settles O43: the flag of each operation's result, its readers by commutation with `writeReceivedFlag`, its reset value. -/
theorem receivedFlagIsSetOnlyByAnAcceptedFrame : Obligations.ReceivedFlagIsSetOnlyByAnAcceptedFrame := by
  refine ⟨fun i s t h => ?_, exec_writeReceivedFlag, resetOf_receivedFlag⟩
  cases i with
  | openRadio => exact receivedFlag_of_respond h
  | setSyncword => exact (receivedFlag_of_respond h).trans (recomputeIf_receivedFlag ..)
  | setMaxPacketLength => exact (receivedFlag_of_respond h).trans (recomputeIf_receivedFlag ..)
  | setCRC enabled => exact receivedFlag_of_respond (u := writeCrcEnabled enabled s) h
  | receive c => exact (receivedFlag_of_respond h).trans (receiveBody_receivedFlag c s)
  | readFIFO maxLength => exact receivedFlag_of_respond (u := (bufRead (lengthOperand maxLength) s).state) h
  | writeFIFO => exact receivedFlag_of_respond h
  | transmit c => exact (receivedFlag_of_respond h).trans (transmitBody_receivedFlag c s)
  | setPreambleLength => exact receivedFlag_of_respond h
  | setTrailerLength => exact receivedFlag_of_respond h

end Sys2Proof.Machine
end

section
/-! PROOFS. The CRC Engine's steps and the framing of a payload (spec/40_functions.md R52, R53, R56). -/
namespace Sys2Proof.Machine

/-! ### One bit step (R52) -/

theorem crcBit_of_feedback {state : Half} {d : Bool} (h : (d ^^ state.getLsbD 0) = true) :
    crcBit state d = (state >>> 1) ^^^ crcPoly := if_pos h

theorem crcBit_of_no_feedback {state : Half} {d : Bool} (h : (d ^^ state.getLsbD 0) = false) :
    crcBit state d = state >>> 1 := if_neg (ne_true_of_eq_false h)

/-- The shift is logical: nothing enters at the top. -/
theorem ushiftRight_one_top (state : Half) : (state >>> 1).getLsbD 15 = false := by
  rw [BitVec.getLsbD_ushiftRight]
  exact state.getLsbD_of_ge (1 + 15) le_rfl

/-- Settles O2: the two branches of `crcBit`, the logical shift, and the six corner cases computed. -/
theorem crcBitShiftsAndConditionallyXors : Obligations.CrcBitShiftsAndConditionallyXors := by
  refine ⟨fun state d => ⟨crcBit_of_feedback, crcBit_of_no_feedback, ushiftRight_one_top state⟩, ?_⟩
  decide

/-! ### One byte step (R53) -/

/-- The byte step with its eight bit steps written out, bit 0 innermost. -/
theorem crcByte_eq_crcBits (state : Half) (x : Byte) : crcByte state x =
    crcBit (crcBit (crcBit (crcBit (crcBit (crcBit (crcBit (crcBit state (x.getLsbD 0)) (x.getLsbD 1)) (x.getLsbD 2))
      (x.getLsbD 3)) (x.getLsbD 4)) (x.getLsbD 5)) (x.getLsbD 6)) (x.getLsbD 7) := rfl

/-- A zero byte leaves the initial state as it is. -/
@[simp] theorem crcByte_zero_zero : crcByte 0 0 = 0 := by decide

/-- Settles O3: the fold of `crcByte` written out, and the worked example computed. -/
theorem crcByteFeedsBitsLeastSignificantFirst : Obligations.CrcByteFeedsBitsLeastSignificantFirst := by
  refine ⟨crcByte_eq_crcBits, crcByte_zero_zero, ?eightStates, ?lastState⟩
  case eightStates => decide
  case lastState => decide

/-! ### Framing (R56) -/

/-- A leading zero byte does not change a CRC. -/
@[simp] theorem crc16_zero_cons (d : List Byte) : crc16 (0 :: d) = crc16 d :=
  congrArg (d.foldl crcByte) crcByte_zero_zero

@[simp] theorem crc16_replicate_zero (n : Nat) : crc16 (List.replicate n 0) = 0 := by
  induction n with
  | zero => exact crc16_nil
  | succ n ih => rw [List.replicate_succ, crc16_zero_cons, ih]

@[simp] theorem reverse_zero : reverse 0 = 0 := by decide

theorem crcTrailer_zero : crcTrailer 0 = List.replicate 2 0 := by decide

/-- Zeros, their zero trailer included, are zeros on the wire. -/
theorem frameEncode_replicate_zero (n : Nat) : frameEncode (List.replicate n 0) = List.replicate (n + 2) 0 := by
  rw [frameEncode, crc16_replicate_zero, crcTrailer_zero, List.replicate_append_replicate, List.map_replicate,
    reverse_zero]

/-- Settles O10: `frameEncode` by its definition and its length law, zeros by `frameEncode_replicate_zero` (the empty payload
is its instance 0), and the worked example computed. -/
theorem frameEncodeAppendsTheCrcAndReverses : Obligations.FrameEncodeAppendsTheCrcAndReverses := by
  refine ⟨fun p => ⟨rfl, frameEncode_length p⟩, frameEncode_replicate_zero 0, frameEncode_replicate_zero, ?workedExample⟩
  case workedExample => decide +kernel

end Sys2Proof.Machine
end

section
/-! PROOFS. The Packet Buffer operations and `writeFIFO` (spec/42_buffer_commands.md R70 to R72). -/
namespace Sys2Proof.Machine

/-! ### BufWrite (R70) -/

/-- How many bytes `bufWrite` takes. -/
theorem bufWrite_taken (data : List Byte) (s : State) : (bufWrite data s).1 = min data.length s.params.cap := rfl

/-- The state after `bufWrite`. -/
theorem bufWrite_state (data : List Byte) (s : State) : (bufWrite data s).2 =
    { s with buf := data.take (min data.length s.params.cap), receivedFlag := false } := rfl

/-- The buffer after `bufWrite` holds exactly the bytes taken. -/
theorem bufWrite_length (data : List Byte) (s : State) :
    (bufWrite data s).2.length = min data.length s.params.cap := by
  rw [length_eq, bufWrite_state]
  exact List.length_take_of_le (Nat.min_le_left ..)

/-- Settles O29: the number taken and the state after from the definition, the length because no more is taken than offered. -/
theorem bufWriteReplacesTheBuffer : Obligations.BufWriteReplacesTheBuffer := fun data s =>
  ⟨bufWrite_taken data s, bufWrite_state data s, bufWrite_length data s⟩

/-! ### BufRead (R71) -/

/-- The bytes `bufRead` returns. -/
theorem bufRead_out (n : Nat) (s : State) : (bufRead n s).out = s.buf.take (min n s.buf.length) := rfl

/-- The length `bufRead` leaves. -/
theorem bufRead_remaining (n : Nat) (s : State) :
    (bufRead n s).remaining = s.buf.length - min n s.buf.length :=
  List.length_drop

/-- What `bufRead` returns and what it leaves are, in order, what was there. -/
theorem bufRead_out_append_buf (n : Nat) (s : State) : (bufRead n s).out ++ (bufRead n s).state.buf = s.buf :=
  List.take_append_drop ..

/-- Settles O30: bytes, remaining length and state of `bufRead`, and the buffer put together again from its two parts. -/
theorem bufReadTakesFromTheFront : Obligations.BufReadTakesFromTheFront := fun n s =>
  ⟨bufRead_out n s, bufRead_remaining n s, bufRead_state n s, bufRead_out_append_buf n s⟩

/-! ### writeFIFO (R72) -/

/-- `writeFIFO` is `bufWrite`, answered by the number of bytes taken. -/
theorem exec_writeFIFO (length : Half) (data : List Byte) (s : State) : exec (.writeFIFO length data) s =
    respond (lengthResponse (lengthValue (bufWrite data s).1)) (bufWrite data s).2 := rfl

/-- A well-formed `writeFIFO` carries as many bytes as its length operand says. -/
theorem wellFormed_writeFIFO_iff (length : Half) (data : List Byte) :
    WellFormed (.writeFIFO length data) ↔ data.length = length.toNat :=
  decide_eq_true_iff

/-- Settles O31: `bufWrite` and the response, with the length operand for the number of data bytes. -/
theorem writeFifoReplacesTheBuffer : Obligations.WriteFifoReplacesTheBuffer := by
  intro length data s hw
  have hlength : data.length = length.toNat := (wellFormed_writeFIFO_iff length data).mp hw
  rw [exec_writeFIFO, respond_eq, bufWrite_taken, bufWrite_state, hlength]
  rfl

end Sys2Proof.Machine
end

section
/-! PROOFS. Every operation emits calls and ends with one response (spec/60_exceptions.md R84). -/
namespace Sys2Proof.Machine

/-- From `s` to `u` CORE has emitted transceiver calls, possibly none, and answered nothing. -/
structure State.EmitsTo (s u : State) : Prop where
  trace : s.trace <+: u.trace
  responses : u.responses = s.responses

theorem State.EmitsTo.trans {s u v : State} (h : s.EmitsTo u) (h' : u.EmitsTo v) : s.EmitsTo v :=
  ⟨h.trace.trans h'.trace, h'.responses.trans h.responses⟩

/-- What leaves call trace and response port alone emits no call. -/
theorem emitsTo_of_eq {s u : State} (htrace : u.trace = s.trace) (hresponses : u.responses = s.responses) :
    s.EmitsTo u :=
  ⟨⟨[], (List.append_nil _).trans htrace.symm⟩, hresponses⟩

/-! ### The shared operations -/

theorem emitsTo_emitAll (cs : List TCall) (s : State) : s.EmitsTo (emitAll cs s) := ⟨⟨cs, rfl⟩, rfl⟩

theorem emitsTo_emit (c : TCall) (s : State) : s.EmitsTo (emit c s) := emitsTo_emitAll [c] s

theorem emitsTo_writeSyncwords (sw0 sw3 : Half) (s : State) : s.EmitsTo (writeSyncwords sw0 sw3 s) :=
  emitsTo_of_eq rfl rfl

theorem emitsTo_writeMaxPacketLength (n : Byte) (s : State) : s.EmitsTo (writeMaxPacketLength n s) :=
  emitsTo_of_eq rfl rfl

theorem emitsTo_writeChannel (c : Byte) (s : State) : s.EmitsTo (writeChannel c s) := emitsTo_of_eq rfl rfl

theorem emitsTo_writeListening (v : Bool) (s : State) : s.EmitsTo (writeListening v s) := emitsTo_of_eq rfl rfl

theorem emitsTo_writeAnswers (a : Answers) (s : State) : s.EmitsTo (writeAnswers a s) := emitsTo_of_eq rfl rfl

theorem emitsTo_acceptPacket (payload : List Byte) (s : State) : s.EmitsTo (acceptPacket payload s) :=
  emitsTo_of_eq rfl rfl

theorem emitsTo_recomputeIf (changed : Bool) (s : State) : s.EmitsTo (recomputeIf changed s) := by
  rw [recomputeIf_eq]
  exact emitsTo_emitAll _ s

theorem emitsTo_selectChannel (c : Byte) (s : State) : s.EmitsTo (selectChannel c s) := by
  rw [selectChannel_eq]
  exact (emitsTo_writeChannel c s).trans (emitsTo_emitAll ..)

/-- One poll emits calls alone, whether there is no data, a rejected frame or an accepted one. -/
theorem emitsTo_pollOnce (s : State) : s.EmitsTo (pollOnce s) := by
  obtain ⟨-, hs⟩ | ⟨-, _, _, -, ⟨-, hs⟩ | ⟨_, -, hs⟩⟩ := pollOnce_cases s <;> rw [hs]
  · exact (emitsTo_emit _ s).trans (emitsTo_writeAnswers ..)
  · exact (emitsTo_emitAll _ s).trans (emitsTo_writeAnswers ..)
  · exact ((emitsTo_emitAll _ s).trans (emitsTo_writeAnswers ..)).trans (emitsTo_acceptPacket ..)

/-! ### The operations -/

theorem emitsTo_receiveBody (c : Byte) (s : State) : s.EmitsTo (receiveBody c s) :=
  (((emitsTo_selectChannel c s).trans (emitsTo_emit ..)).trans (emitsTo_writeListening ..)).trans (emitsTo_pollOnce _)

theorem emitsTo_transmitBody (c : Byte) (s : State) : s.EmitsTo (transmitBody c s) :=
  (((emitsTo_emit _ s).trans (emitsTo_writeListening ..)).trans (emitsTo_selectChannel c _)).trans (emitsTo_emitAll ..)

/-- Every instruction in every state is some calls and then one response. -/
theorem exec_emits_then_responds (i : Instr) (s : State) : ∃ r u, exec i s = respond r u ∧ s.EmitsTo u := by
  cases i with
  | openRadio =>
    have hreinitialise : s.EmitsTo (reinitialise s) := emitsTo_of_eq rfl rfl
    exact ⟨_, _, rfl, (hreinitialise.trans (emitsTo_emitAll ..)).trans (emitsTo_emitAll ..)⟩
  | setSyncword sw0 sw3 => exact ⟨_, _, rfl, (emitsTo_writeSyncwords sw0 sw3 s).trans (emitsTo_recomputeIf ..)⟩
  | setMaxPacketLength n => exact ⟨_, _, rfl, (emitsTo_writeMaxPacketLength n s).trans (emitsTo_recomputeIf ..)⟩
  | setCRC => exact ⟨_, _, rfl, emitsTo_of_eq rfl rfl⟩
  | receive c => exact ⟨_, _, rfl, emitsTo_receiveBody c s⟩
  | readFIFO => exact ⟨_, _, rfl, emitsTo_of_eq rfl rfl⟩
  | writeFIFO => exact ⟨_, _, rfl, emitsTo_of_eq rfl rfl⟩
  | transmit c => exact ⟨_, _, rfl, emitsTo_transmitBody c s⟩
  | setPreambleLength => exact ⟨_, _, rfl, emitsTo_of_eq rfl rfl⟩
  | setTrailerLength => exact ⟨_, _, rfl, emitsTo_of_eq rfl rfl⟩

/-- Every instruction in every state adds calls to the trace and exactly one response. -/
theorem exec_completes (i : Instr) (s : State) : ∃ t calls r,
    exec i s = .next t ∧ t.trace = s.trace ++ calls ∧ t.responses = s.responses ++ [r] := by
  obtain ⟨r, u, hexec, ⟨calls, htrace⟩, hresponses⟩ := exec_emits_then_responds i s
  exact ⟨_, calls, r, hexec.trans (respond_eq r u), htrace.symm, congrArg (· ++ [r]) hresponses⟩

/-- Settles O38: every instruction by `exec_completes`; no step faults, as `Fault` has no constructor. (That a call to the
transceiver returns is the spec's assumption U2, log entry 11: the answers are part of the state.) -/
theorem everyOperationCompletesWithOneResponse : Obligations.EveryOperationCompletesWithOneResponse :=
  ⟨exec_completes, fun _ f => nomatch f⟩

end Sys2Proof.Machine
end

section
/-! PROOFS. Oversized requests are clamped (spec/60_exceptions.md R86). -/
namespace Sys2Proof.Machine

/-! ### readFIFO of at least the whole buffer -/

theorem exec_readFIFO (maxLength : Half) (s : State) : exec (.readFIFO maxLength) s =
    respond (readResponse (bufRead maxLength.toNat s).remaining (bufRead maxLength.toNat s).out)
      (bufRead maxLength.toNat s).state := rfl

/-- Asked for no fewer bytes than there are, `bufRead` returns them all. -/
theorem bufRead_of_length_le {n : Nat} {s : State} (h : s.buf.length ≤ n) :
    bufRead n s = ⟨s.buf, 0, memWrite [] s⟩ := by
  simp [bufRead, clampRead, memRead, Nat.min_eq_right h]

/-! ### receive of an accepted frame -/

theorem exec_receive (c : Byte) (s : State) : exec (.receive c) s =
    respond (lengthResponse (receivedLength (receiveBody c s))) (receiveBody c s) := rfl

/-- What one poll does when data is available and the frame is accepted. -/
theorem pollOnce_of_accepted {s : State} {payload : List Byte} (hdata : s.dataComing = true)
    (hframe : frameDecode s.frameComing s.cfg.crcEnabled = some payload) :
    pollOnce s = acceptPacket payload
      (writeAnswers s.answersAfterFrame (emitAll [.isDataAvailable, .readBytes s.cfg.payloadSize] s)) := by
  obtain ⟨hno, -⟩ | ⟨-, r, a, hr, hs⟩ := pollOnce_cases s
  · exact absurd (hdata.symm.trans hno) (by decide)
  · have hcoming : s.frameComing = r := congrArg Prod.fst hr
    have hafter : s.answersAfterFrame = a := congrArg Prod.snd hr
    subst hcoming hafter
    obtain ⟨hrejected, -⟩ | ⟨payload', haccepted, hs⟩ := hs
    · cases hframe.symm.trans hrejected
    · cases hframe.symm.trans haccepted
      exact hs

/-- `receive` of an accepted frame, whether validation is on or off: the payload, clamped to `CAP`, becomes the buffer and
its length the response (spec/43_radio_commands.md R78, R79). Choosing the channel and listening do not change which frame
comes. -/
theorem exec_receive_of_accepted (c : Byte) {s : State} {payload : List Byte} (hdata : s.dataComing = true)
    (hframe : frameDecode s.frameComing s.cfg.crcEnabled = some payload) :
    exec (.receive c) s = .next { s with
      cfg := { s.cfg with channel := c }
      buf := payload.take s.params.cap
      receivedFlag := true
      listening := true
      answers := s.answersAfterFrame
      trace := s.trace ++ (if c = s.cfg.channel then [] else [.setChannel c]) ++
        [.startListening, .isDataAvailable, .readBytes s.cfg.payloadSize]
      responses := s.responses ++ [lengthResponse (lengthValue (payload.take s.params.cap).length)] } := by
  have hbody : receiveBody c s = acceptPacket payload (writeAnswers s.answersAfterFrame
      (emitAll [.isDataAvailable, .readBytes s.cfg.payloadSize]
        (writeListening true (emit .startListening (selectChannel c s))))) := by
    rw [receiveBody, selectChannel_eq]
    exact pollOnce_of_accepted hdata hframe
  rw [exec_receive, hbody, acceptPacket_eq, selectChannel_eq]
  simp [respond_eq, receivedLength, writeAnswers, emitAll, writeListening, emit, writeChannel]

/-! ### R86 -/

/-- Settles O48: each clamp is the operation's full equation with the operand past its bound; acceptance of every operand is
`exec_completes`. -/
theorem oversizedRequestsAreClamped : Obligations.OversizedRequestsAreClamped := by
  refine ⟨fun n data s hw hn => ?writeFIFO, fun n s hn => ?readFIFO, fun c s payload hdata hframe hlong => ?receive,
    fun i s => ?every⟩
  case writeFIFO =>
    have hclamp : min n.toNat s.params.cap = s.params.cap := Nat.min_eq_right hn.le
    have hlength : data.length = n.toNat := (wellFormed_writeFIFO_iff n data).mp hw
    have hexec := writeFifoReplacesTheBuffer n data s hw
    rw [hclamp] at hexec
    exact ⟨_, hexec, rfl, List.length_take_of_le (hlength ▸ hn.le), rfl⟩
  case readFIFO =>
    rw [exec_readFIFO, bufRead_of_length_le hn.le]
    exact ⟨_, respond_eq .., rfl, rfl⟩
  case receive =>
    have hlength : (payload.take s.params.cap).length = s.params.cap := List.length_take_of_le hlong.le
    refine ⟨_, exec_receive_of_accepted c hdata hframe, rfl, hlength, ?_⟩
    rw [hlength]
    rfl
  case every =>
    obtain ⟨t, _, _, hexec, -⟩ := exec_completes i s
    exact ⟨t, hexec⟩

end Sys2Proof.Machine
end

section
/-! PROOFS. `writeFIFO` destroys an unread packet (spec/70_reset_and_hazards.md R102). -/
namespace Sys2Proof.Machine

/-! ### receive that accepts no frame -/

/-- One poll that accepts no frame keeps the buffer, whether there is no data or a rejected frame. -/
theorem pollOnce_buf_of_not_accepts {s : State} (hno : s.acceptsFrame = false) : (pollOnce s).buf = s.buf := by
  obtain ⟨-, hs⟩ | ⟨hdata, r, a, hr, ⟨-, hs⟩ | ⟨payload, haccepted, -⟩⟩ := pollOnce_cases s
  · simp [hs]
  · simp [hs]
  · simp [State.acceptsFrame, State.dataComing, State.frameComing, hdata, hr, haccepted] at hno

theorem receiveBody_buf_of_not_accepts (c : Byte) {s : State} (hno : s.acceptsFrame = false) :
    (receiveBody c s).buf = s.buf := by
  have hkept : (writeListening true (emit .startListening (selectChannel c s))).acceptsFrame = s.acceptsFrame :=
    acceptsFrame_congr (by simp [selectChannel_eq]) (by simp [selectChannel_eq]) (by simp [selectChannel_eq])
  rw [receiveBody, pollOnce_buf_of_not_accepts (hkept.trans hno)]
  simp [selectChannel_eq]

theorem receivedLength_of_flag_clear {s : State} (hflag : s.receivedFlag = false) : receivedLength s = 0 :=
  if_neg (ne_true_of_eq_false hflag)

/-- With the flag clear, `receive` of no frame returns 0 and keeps buffer and flag (spec/43_radio_commands.md R78). -/
theorem exec_receive_of_not_accepts (c : Byte) {s : State} (hno : s.acceptsFrame = false)
    (hflag : s.receivedFlag = false) :
    ∃ t, exec (.receive c) s = .next t ∧ t.buf = s.buf ∧ t.receivedFlag = false ∧
      t.responses = s.responses ++ [lengthResponse 0] := by
  have hclear : (receiveBody c s).receivedFlag = false := by rw [receiveBody_receivedFlag, hno, hflag, Bool.or_self]
  rw [exec_receive, receivedLength_of_flag_clear hclear]
  exact ⟨_, respond_eq .., receiveBody_buf_of_not_accepts c hno, hclear,
    congrArg (· ++ [lengthResponse 0]) (emitsTo_receiveBody c s).responses⟩

/-! ### The flag along a run that accepts no frame -/

/-- An operation that accepts no frame leaves a clear flag clear. -/
theorem exec_keeps_flag_clear {i : Instr} {s t : State} (hno : ∀ c, i = .receive c → s.acceptsFrame = false)
    (hflag : s.receivedFlag = false) (h : exec i s = .next t) : t.receivedFlag = false := by
  obtain ⟨hflagAfter, -, -⟩ := receivedFlagIsSetOnlyByAnAcceptedFrame
  have ht := hflagAfter i s t h
  cases i with
  | receive c =>
    have hneither : (s.acceptsFrame || s.receivedFlag) = false := by rw [hno c rfl, hflag, Bool.or_self]
    exact ht.trans hneither
  | openRadio => exact ht
  | writeFIFO => exact ht
  | setSyncword => exact ht.trans hflag
  | setMaxPacketLength => exact ht.trans hflag
  | setCRC => exact ht.trans hflag
  | readFIFO => exact ht.trans hflag
  | transmit => exact ht.trans hflag
  | setPreambleLength => exact ht.trans hflag
  | setTrailerLength => exact ht.trans hflag

/-- No run that accepts no frame sets the flag; what the ports come to hold does not matter. -/
theorem RunsWithoutAccepting.keeps_flag_clear {s t : State} (hrun : RunsWithoutAccepting s t)
    (hflag : s.receivedFlag = false) : t.receivedFlag = false := by
  induction hrun with
  | refl => exact hflag
  | operation _ _ hno hexec ih => exact exec_keeps_flag_clear hno ih hexec
  | ports _ _ _ ih => exact ih

/-! ### R102 -/

/-- Settles O49: the write clears the flag, by induction over the run it stays clear, and `receive` then returns 0. -/
theorem writeDestroysAnUnconsumedPacket : Obligations.WriteDestroysAnUnconsumedPacket := by
  intro n data s hw
  have hlength : data.length = n.toNat := (wellFormed_writeFIFO_iff n data).mp hw
  have htaken : data.take (min n.toNat s.params.cap) = data.take s.params.cap := by
    rw [← hlength, Nat.min_comm, ← List.take_eq_take_min]
  exact ⟨_, writeFifoReplacesTheBuffer n data s hw, htaken, rfl,
    fun _ hrun c hno => exec_receive_of_not_accepts c hno (hrun.keeps_flag_clear rfl)⟩

end Sys2Proof.Machine
end

section
/-! PROOFS. Laws of the CRC Engine over whole sequences (spec/40_functions.md, 2): linearity, residue, single-bit errors. -/
namespace Sys2Proof.Machine

/-! ### Whole sequences, byte by byte -/

/-- Settles O4: the fold's start and its step at the end; leading zeros leave the initial state by `crc16_replicate_zero`. -/
theorem crcStartsAtZeroAndSkipsLeadingZeros : Obligations.CrcStartsAtZeroAndSkipsLeadingZeros := by
  refine ⟨crc16_nil, fun d x => crc16_append d [x], fun n d => ?leadingZeros, crc16_replicate_zero⟩
  case leadingZeros => rw [crc16_append, crc16_replicate_zero]; rfl

/-! ### One bit step, bit by bit -/

/-- The feedback bit is added to the shifted state wherever the polynomial has a 1. -/
theorem crcBit_getLsbD (state : Half) (d : Bool) (i : Nat) : (crcBit state d).getLsbD i =
    (state.getLsbD (1 + i) ^^ ((d ^^ state.getLsbD 0) && crcPoly.getLsbD i)) := by
  cases hfeedback : (d ^^ state.getLsbD 0) with
  | false => simp [crcBit_of_no_feedback hfeedback]
  | true => simp [crcBit_of_feedback hfeedback]

/-- Bit 15 of the state after a step is the feedback bit: the shift leaves it clear and the polynomial sets it. -/
theorem crcBit_top (state : Half) (d : Bool) : (crcBit state d).getLsbD 15 = (d ^^ state.getLsbD 0) := by
  have hpoly : crcPoly.getLsbD 15 = true := by decide
  rw [crcBit_getLsbD, hpoly, state.getLsbD_of_ge (1 + 15) le_rfl, Bool.and_true, Bool.false_xor]

/-- The polynomial gives the feedback bit away, so the state before a step is determined by the state after it. -/
theorem crcBit_injective (d : Bool) : Function.Injective (crcBit · d) := by
  intro s t (h : crcBit s d = crcBit t d)
  have hfeedback : (d ^^ s.getLsbD 0) = (d ^^ t.getLsbD 0) := by rw [← crcBit_top, h, crcBit_top]
  apply BitVec.eq_of_getLsbD_eq
  intro i _
  cases i with
  | zero => exact Bool.xor_right_inj.mp hfeedback
  | succ i =>
    have hbit : (crcBit s d).getLsbD i = (crcBit t d).getLsbD i := by rw [h]
    rw [crcBit_getLsbD, crcBit_getLsbD, hfeedback, Nat.add_comm] at hbit
    exact Bool.xor_left_inj.mp hbit

theorem crcBit_xor (s t : Half) (d e : Bool) : crcBit (s ^^^ t) (d ^^ e) = crcBit s d ^^^ crcBit t e := by
  have hbits : ∀ a b s₀ t₀ d e p : Bool, ((a ^^ b) ^^ (((d ^^ e) ^^ (s₀ ^^ t₀)) && p)) =
      ((a ^^ ((d ^^ s₀) && p)) ^^ (b ^^ ((e ^^ t₀) && p))) := by decide
  apply BitVec.eq_of_getLsbD_eq
  intro i _
  simp only [crcBit_getLsbD, BitVec.getLsbD_xor]
  exact hbits ..

/-- Fed with its own lowest bit, the engine only shifts. -/
theorem crcBit_self (state : Half) : crcBit state (state.getLsbD 0) = state >>> 1 :=
  crcBit_of_no_feedback (Bool.xor_self _)

/-! ### One byte step -/

theorem crcByte_injective (x : Byte) : Function.Injective (crcByte · x) := by
  intro s t h
  simp only [crcByte_eq_crcBits] at h
  iterate 8 replace h := crcBit_injective _ h
  exact h

theorem crcByte_xor (s t : Half) (x y : Byte) : crcByte (s ^^^ t) (x ^^^ y) = crcByte s x ^^^ crcByte t y := by
  simp only [crcByte_eq_crcBits, BitVec.getLsbD_xor, crcBit_xor]

/-- Fed with its own low byte, the engine only shifts. -/
theorem crcByte_lowByte (state : Half) : crcByte state (lowByte state) = state >>> 8 := by
  have hbit (i : Nat) (hi : i < 8) : (lowByte state).getLsbD i = (state >>> i).getLsbD 0 := by
    simp [lowByte, hi]
  simp only [crcByte_eq_crcBits, hbit, Nat.reduceLT, BitVec.ushiftRight_zero, crcBit_self, ← BitVec.shiftRight_add,
    Nat.reduceAdd]

/-! ### Linearity -/

/-- The fold is linear in the initial state and the sequence together. -/
theorem foldl_crcByte_xor {a b : List Byte} (hlength : a.length = b.length) (s t : Half) :
    (List.zipWith (fun x y => x ^^^ y) a b).foldl crcByte (s ^^^ t) = a.foldl crcByte s ^^^ b.foldl crcByte t := by
  induction a generalizing b s t with
  | nil =>
    obtain rfl := List.length_eq_zero_iff.mp hlength.symm
    rfl
  | cons x xs ih =>
    obtain ⟨y, ys, rfl⟩ := List.exists_cons_of_length_eq_add_one hlength.symm
    simp only [List.zipWith_cons_cons, List.foldl_cons, crcByte_xor]
    exact ih (Nat.succ.inj hlength) ..

/-- Settles O5: both CRCs start at 0, which is `0 ^^^ 0`. -/
theorem crcIsLinearOverXor : Obligations.CrcIsLinearOverXor := fun _ _ hlength =>
  foldl_crcByte_xor hlength 0 0

/-! ### Residue -/

theorem highByte_eq_lowByte_shift (c : Half) : highByte c = lowByte (c >>> 8) := by
  apply BitVec.eq_of_getLsbD_eq
  intro i hi
  simp [highByte, lowByte, hi]

/-- The trailer shifts the whole CRC out. -/
theorem crc16_append_crcTrailer (d : List Byte) : crc16 (d ++ crcTrailer (crc16 d)) = 0 := by
  calc crc16 (d ++ crcTrailer (crc16 d))
      = crcByte (crcByte (crc16 d) (lowByte (crc16 d))) (highByte (crc16 d)) := crc16_append ..
    _ = crc16 d >>> 8 >>> 8 := by rw [crcByte_lowByte, highByte_eq_lowByte_shift, crcByte_lowByte]
    _ = crc16 d >>> (8 + 8) := (BitVec.shiftRight_add ..).symm
    _ = 0 := BitVec.ushiftRight_eq_zero le_rfl

/-- Settles O6: the trailer written out. -/
theorem crcResidueOfSequenceWithItsTrailerIsZero : Obligations.CrcResidueOfSequenceWithItsTrailerIsZero :=
  crc16_append_crcTrailer

/-! ### Single-bit errors -/

theorem foldl_crcByte_injective (d : List Byte) : Function.Injective (d.foldl crcByte) := by
  induction d with
  | nil => exact Function.injective_id
  | cons x xs ih => exact ih.comp (crcByte_injective x)

/-- By linearity two bytes that differ in one bit differ by the CRC of that bit, which is not 0. -/
theorem crcByte_flip_ne (state : Half) (x : Byte) {b : Nat} (hb : b < 8) :
    crcByte state (x ^^^ (1#8 <<< b)) ≠ crcByte state x := by
  have hflip : ∀ b < 8, crcByte 0 (1#8 <<< b) ≠ 0 := by decide
  have hsplit : crcByte state (x ^^^ (1#8 <<< b)) = crcByte state x ^^^ crcByte 0 (1#8 <<< b) := by
    simpa using crcByte_xor state 0 x (1#8 <<< b)
  intro h
  exact hflip b hb (by simpa [hsplit] using h)

/-- The sequences agree before the flipped byte, which sets the states apart; the bytes after it keep them so. -/
theorem crc16_flip_ne {d : List Byte} {k b : Nat} (hk : k < d.length) (hb : b < 8) :
    crc16 (d.set k (d[k] ^^^ (1#8 <<< b))) ≠ crc16 d := by
  intro h
  have hd : d = d.take k ++ d[k] :: d.drop (k + 1) := by rw [List.getElem_cons_drop, List.take_append_drop]
  rw [List.set_eq_take_append_cons_drop, if_pos hk, crc16_append, congrArg crc16 hd, crc16_append] at h
  exact crcByte_flip_ne _ _ hb (foldl_crcByte_injective _ h)

/-- Settles O7: `crc16_flip_ne`. -/
theorem crcDetectsEverySingleBitFlip : Obligations.CrcDetectsEverySingleBitFlip := fun _ _ _ => crc16_flip_ne

end Sys2Proof.Machine
end

section
/-! PROOFS. The Bit Reverser and the Address Mapper (spec/40_functions.md, 1 and 3; spec/30_encoding.md, the pipe address). -/
namespace Sys2Proof.Machine

/-! ### The Bit Reverser -/

theorem reverse_getLsbD (x : Byte) {i : Nat} (hi : i < 8) : (reverse x).getLsbD i = x.getLsbD (7 - i) := by
  interval_cases i <;> simp [reverse, bitOf]

@[simp] theorem reverse_reverse (x : Byte) : reverse (reverse x) = x := by
  apply BitVec.eq_of_getLsbD_eq
  intro i hi
  have hback : 7 - (7 - i) = i := by omega
  rw [reverse_getLsbD _ hi, reverse_getLsbD _ (by omega), hback]

theorem reverse_injective : Function.Injective reverse := Function.LeftInverse.injective reverse_reverse

theorem reverse_and (x y : Byte) : reverse (x &&& y) = reverse x &&& reverse y := by
  apply BitVec.eq_of_getLsbD_eq
  intro i hi
  simp only [BitVec.getLsbD_and, reverse_getLsbD _ hi]

theorem reverse_or (x y : Byte) : reverse (x ||| y) = reverse x ||| reverse y := by
  apply BitVec.eq_of_getLsbD_eq
  intro i hi
  simp only [BitVec.getLsbD_or, reverse_getLsbD _ hi]

theorem reverse_xor (x y : Byte) : reverse (x ^^^ y) = reverse x ^^^ reverse y := by
  apply BitVec.eq_of_getLsbD_eq
  intro i hi
  simp only [BitVec.getLsbD_xor, reverse_getLsbD _ hi]

/-- Settles O1: the laws by `reverse_getLsbD`, the sixteen fixed points by computing all 256 bytes. -/
theorem reverseExchangesBitsEndToEnd : Obligations.ReverseExchangesBitsEndToEnd := by
  refine fun x y => ⟨fun _ => reverse_getLsbD x, reverse_reverse x, reverse_and x y, reverse_or x y, reverse_xor x y,
    ?fixedPoints, ?workedExample⟩
  case fixedPoints => revert x; decide +kernel
  case workedExample => decide

/-! ### The Address Mapper -/

theorem getLsbD_nibbles (hi lo : BitVec 4) (i : Nat) :
    (hi ++ lo : Byte).getLsbD i = if i < 4 then lo.getLsbD i else hi.getLsbD (i - 4) :=
  BitVec.getLsbD_append

theorem nibbles_inj {hi lo hi' lo' : BitVec 4} (h : (hi ++ lo : Byte) = hi' ++ lo') : hi = hi' ∧ lo = lo' := by
  have hhi : (hi ++ lo).extractLsb' 4 4 = (hi' ++ lo').extractLsb' 4 4 := congrArg (·.extractLsb' 4 4) h
  have hlo : (hi ++ lo).extractLsb' 0 4 = (hi' ++ lo').extractLsb' 0 4 := congrArg (·.extractLsb' 0 4) h
  rw [BitVec.extractLsb'_append_eq_left, BitVec.extractLsb'_append_eq_left] at hhi
  rw [BitVec.extractLsb'_append_eq_right, BitVec.extractLsb'_append_eq_right] at hlo
  exact ⟨hhi, hlo⟩

theorem or_nibbles (hi lo hi' lo' : BitVec 4) :
    ((hi ++ lo : Byte) ||| (hi' ++ lo' : Byte)) = (hi ||| hi') ++ (lo ||| lo') :=
  BitVec.or_append

/-- The mapper's selection of a word's lowest nibble. -/
theorem shiftLeft_and_eq_nibbles (x : Half) : ((x <<< 4) &&& 0xF0).setWidth 8 = (x.extractLsb' 0 4 ++ 0#4 : Byte) := by
  refine BitVec.eq_of_getLsbD_eq fun i hi => ?_
  rw [getLsbD_nibbles]
  interval_cases i <;> simp

/-- The mapper's selection of a word's highest nibble. -/
theorem ushiftRight_12_and_eq_nibbles (x : Half) :
    ((x >>> 12) &&& 0x0F).setWidth 8 = (0#4 ++ x.extractLsb' 12 4 : Byte) := by
  refine BitVec.eq_of_getLsbD_eq fun i hi => ?_
  rw [getLsbD_nibbles]
  interval_cases i <;> simp

/-- The mapper's selection of a word's two middle nibbles. -/
theorem ushiftRight_4_and_eq_nibbles (x : Half) :
    ((x >>> 4) &&& 0xFF).setWidth 8 = (x.extractLsb' 8 4 ++ x.extractLsb' 4 4 : Byte) := by
  refine BitVec.eq_of_getLsbD_eq fun i hi => ?_
  rw [getLsbD_nibbles]
  interval_cases i <;> simp

/-- The low nibble of the last packed byte, chosen by the bit of `s0` next to it. -/
theorem trailing_discriminator_eq_nibbles (b : Bool) :
    (if b then 0x05 else 0x0A) = (0#4 ++ (if b then 0x5#4 else 0xA#4) : Byte) := by
  cases b <;> rfl

/-- The high nibble of the first packed byte, chosen by the bit of `s3` next to it. -/
theorem leading_discriminator_eq_nibbles (b : Bool) :
    (if b then 0xA0 else 0x50) = ((if b then 0xA#4 else 0x5#4) ++ 0#4 : Byte) := by
  cases b <;> rfl

/-- The five packed bytes, nibble by nibble (spec/30_encoding.md, the pipe address). -/
theorem deriveAddress_eq_nibbles (s0 s3 : Half) : deriveAddress s0 s3 = {
    b0 := reverse ((if s3.getLsbD 15 then 0xA#4 else 0x5#4) ++ s3.extractLsb' 12 4)
    b1 := reverse (s3.extractLsb' 8 4 ++ s3.extractLsb' 4 4)
    b2 := reverse (s3.extractLsb' 0 4 ++ s0.extractLsb' 12 4)
    b3 := reverse (s0.extractLsb' 8 4 ++ s0.extractLsb' 4 4)
    b4 := reverse (s0.extractLsb' 0 4 ++ (if s0.getLsbD 0 then 0x5#4 else 0xA#4)) } := by
  simp only [deriveAddress, shiftLeft_and_eq_nibbles, ushiftRight_12_and_eq_nibbles, ushiftRight_4_and_eq_nibbles,
    trailing_discriminator_eq_nibbles, leading_discriminator_eq_nibbles, or_nibbles, BitVec.zero_or, BitVec.or_zero]

/-- Settles O8: the packed bytes by `deriveAddress_eq_nibbles`, the discriminators' inner bits for both values of the bit
they depend on, the two vectors computed. -/
theorem addressBytesHaveTheNibbleLayout : Obligations.AddressBytesHaveTheNibbleLayout := by
  refine ⟨fun s0 s3 i hi => ?layout, ?vectors⟩
  case layout =>
    rw [deriveAddress_eq_nibbles]
    refine ⟨reverse_getLsbD _ hi, reverse_getLsbD _ hi, reverse_getLsbD _ hi, reverse_getLsbD _ hi,
      reverse_getLsbD _ hi, ?_, ?_⟩
    · rw [getLsbD_nibbles]
      cases s3.getLsbD 15 <;> rfl
    · rw [getLsbD_nibbles]
      cases s0.getLsbD 0 <;> rfl
  case vectors => decide

theorem half_eq_of_nibbles {x y : Half} (h : ∀ k < 4, x.extractLsb' (4 * k) 4 = y.extractLsb' (4 * k) 4) : x = y := by
  refine BitVec.eq_of_getLsbD_eq fun i hi => ?_
  have hnibble := congrArg (·.getLsbD (i % 4)) (h (i / 4) (by omega))
  simpa [Nat.mod_lt, Nat.div_add_mod] using hnibble

/-- Settles O9: equal addresses have equal packed bytes, as `reverse` is injective, and so the same eight nibbles. -/
theorem distinctSyncwordsGiveDistinctAddresses : Obligations.DistinctSyncwordsGiveDistinctAddresses := by
  intro s0 s3 t0 t3 h
  rw [deriveAddress_eq_nibbles, deriveAddress_eq_nibbles, Address.mk.injEq] at h
  obtain ⟨h0, h1, h2, h3, h4⟩ := h
  obtain ⟨-, hs3_12⟩ := nibbles_inj (reverse_injective h0)
  obtain ⟨hs3_8, hs3_4⟩ := nibbles_inj (reverse_injective h1)
  obtain ⟨hs3_0, hs0_12⟩ := nibbles_inj (reverse_injective h2)
  obtain ⟨hs0_8, hs0_4⟩ := nibbles_inj (reverse_injective h3)
  obtain ⟨hs0_0, -⟩ := nibbles_inj (reverse_injective h4)
  constructor
  · refine half_eq_of_nibbles fun k hk => ?_
    interval_cases k
    exacts [hs0_0, hs0_4, hs0_8, hs0_12]
  · refine half_eq_of_nibbles fun k hk => ?_
    interval_cases k
    exacts [hs3_0, hs3_4, hs3_8, hs3_12]

end Sys2Proof.Machine
end

section
/-! PROOFS. Decoding frames (spec/40_functions.md, 4). -/
namespace Sys2Proof.Machine

/-! ### What validation compares -/

/-- With validation on, the two bytes at the end are compared with the CRC of the bytes before them. -/
theorem frameDecode_on {r payload trailer : List Byte} (htrailer : trailer.length = crcBytes)
    (hr : r.map reverse = payload ++ trailer) :
    frameDecode r true = if trailer = crcTrailer (crc16 payload) then some payload else none := by
  simp [frameDecode, hr, htrailer]

/-- An accepted frame has CRC residue 0. -/
theorem crc16_of_frameDecode_on {r payload : List Byte} (h : frameDecode r true = some payload) :
    crc16 (r.map reverse) = 0 := by
  obtain ⟨htrailer, -⟩ := Option.ite_none_right_eq_some.mp h
  calc crc16 (r.map reverse)
      = crc16 (_ ++ (r.map reverse).drop ((r.map reverse).length - crcBytes)) := by rw [List.take_append_drop]
    _ = 0 := by rw [htrailer]; exact crc16_append_crcTrailer _

/-- Settles O11: the two trailer bytes against the CRC's, both equal or either different. -/
theorem frameDecodeChecksTheLastTwoBytes : Obligations.FrameDecodeChecksTheLastTwoBytes := by
  intro r payload lo hi hr
  have hon := frameDecode_on (trailer := [lo, hi]) rfl hr
  have htrailer : [lo, hi] = crcTrailer (crc16 payload) ↔ lo = lowByte (crc16 payload) ∧ hi = highByte (crc16 payload) := by
    simp [crcTrailer]
  refine ⟨?off, fun hgood => ?good, fun hbad => ?bad⟩
  case off => rw [frameDecode_off, hr]
  case good => rw [hon, if_pos (htrailer.mpr hgood)]
  case bad => rw [hon, if_neg fun heq => not_and_or.mpr hbad (htrailer.mp heq)]

/-! ### Frames of `frameEncode` -/

/-- Unreversed, a frame is the packet and its trailer. -/
theorem map_reverse_frameEncode (p : List Byte) : (frameEncode p).map reverse = p ++ crcTrailer (crc16 p) := by
  rw [frameEncode, List.map_map, Function.LeftInverse.comp_eq_id reverse_reverse, List.map_id]

theorem frameDecode_frameEncode (p : List Byte) : frameDecode (frameEncode p) true = some p := by
  rw [frameDecode_on (crcTrailer_length _) (map_reverse_frameEncode p), if_pos rfl]

/-- Settles O12: with validation `frameDecode_frameEncode`, without it the frame unreversed. -/
theorem frameDecodeUndoesFrameEncode : Obligations.FrameDecodeUndoesFrameEncode := fun p =>
  ⟨frameDecode_frameEncode p, congrArg some (map_reverse_frameEncode p)⟩

/-! ### Single-bit errors -/

/-- Every frame written has CRC residue 0 once unreversed. -/
theorem crc16_frameEncode (p : List Byte) : crc16 ((frameEncode p).map reverse) = 0 := by
  rw [map_reverse_frameEncode, crc16_append_crcTrailer]

/-- Flipping bit `b` of a byte flips bit `7 - b` of its reverse. -/
theorem reverse_flip (x : Byte) {b : Nat} (hb : b < 8) : reverse (x ^^^ (1#8 <<< b)) = reverse x ^^^ (1#8 <<< (7 - b)) := by
  have hbit : ∀ b < 8, reverse (1#8 <<< b) = 1#8 <<< (7 - b) := by decide
  rw [reverse_xor, hbit b hb]

/-- Settles O13: an accepted frame has residue 0, as the frame encoded has, and two sequences that differ in one bit do not
have the same CRC. -/
theorem singleBitErrorInAFrameIsRejected : Obligations.SingleBitErrorInAFrameIsRejected := by
  intro p k b hk hb
  refine Option.eq_none_iff_forall_ne_some.mpr fun payload haccepted => ?_
  have hk' : k < ((frameEncode p).map reverse).length := by rwa [List.length_map]
  refine crc16_flip_ne hk' (b := 7 - b) (by omega) ?_
  rw [List.getElem_map, ← reverse_flip _ hb, ← List.map_set, crc16_frameEncode]
  exact crc16_of_frameDecode_on haccepted

end Sys2Proof.Machine
end

section
/-! PROOFS. Decoder and encoder, and the step that takes an operation from the command port (spec/30_encoding.md, 2). -/
namespace Sys2Proof

/-! ### The encoded word's fields and operands -/

@[simp] theorem opField_encodeWord (i : Instr) : opField (encodeWord i) = opcode i := opField_assembleWord ..

@[simp] theorem aField_encodeWord (i : Instr) : aField (encodeWord i) = operandA i := aField_assembleWord ..

@[simp] theorem bField_encodeWord (i : Instr) : bField (encodeWord i) = operandB i := bField_assembleWord ..

/-- A byte widened into `b` comes back. -/
theorem byteOperand_of_bField {w : CommandWord} {n : Byte} (h : bField w = n.setWidth 16) : byteOperand w = n := by
  rw [byteOperand, h]
  exact BitVec.eq_of_getLsbD_eq fun i hi => by simp [hi, show i < 16 by omega]

/-- A bool written to `b[0]` comes back. -/
theorem boolOperand_of_bField {w : CommandWord} {enabled : Bool} (h : bField w = if enabled then 1 else 0) :
    boolOperand w = enabled := by
  rw [boolOperand, h]
  cases enabled <;> rfl

/-! ### Decoding what was encoded -/

/-- A `writeFIFO` word takes the data bytes that follow it. -/
theorem decodeWrite_map_data {length : Half} {data : List Byte} (hlength : data.length = length.toNat)
    (rest : List PortItem) : decodeWrite length (data.map .data ++ rest) = .instr (.writeFIFO length data) rest := by
  rw [decodeWrite, ← hlength, takeData_map_data]

/-- Settles O14: for each operation the decoder selects its arm by the opcode field and reads its operands back. -/
theorem decodeOfEncodeIsTheInstruction : Obligations.DecodeOfEncodeIsTheInstruction := by
  intro i rest hw
  show decodeWord (encodeWord i) ((dataBytes i).map .data ++ rest) = .instr i rest
  have hop := opField_encodeWord i
  have ha := aField_encodeWord i
  have hb := bField_encodeWord i
  rw [decodeWord, hop]
  cases i with
  | openRadio => rfl
  | setSyncword sw0 sw3 => rw [ha, hb]; rfl
  | setMaxPacketLength n => rw [byteOperand_of_bField hb]; rfl
  | setCRC enabled => rw [boolOperand_of_bField hb]; rfl
  | receive channel => rw [byteOperand_of_bField hb]; rfl
  | readFIFO maxLength => rw [hb]; rfl
  | writeFIFO length data => rw [hb]; exact decodeWrite_map_data (of_decide_eq_true hw) rest
  | transmit channel => rw [byteOperand_of_bField hb]; rfl
  | setPreambleLength n => rw [byteOperand_of_bField hb]; rfl
  | setTrailerLength n => rw [byteOperand_of_bField hb]; rfl

/-! ### What was decoded -/

/-- The `writeFIFO` decoded from a word carries the bytes that stood after it, as many as its length says. -/
theorem decodeWrite_eq_instr {length : Half} {items rest : List PortItem} {i : Instr}
    (h : decodeWrite length items = .instr i rest) :
    ∃ data, i = .writeFIFO length data ∧ data.length = length.toNat ∧ items = data.map .data ++ rest := by
  unfold decodeWrite at h
  split at h
  · next data rest' htaken =>
    cases h
    obtain ⟨hlength, hitems⟩ := takeData_some _ _ _ _ htaken
    exact ⟨data, rfl, hlength, hitems⟩
  · cases h

theorem opField_eq_ofNat {w : CommandWord} {n : Nat} (h : (opField w).toNat = n) : opField w = BitVec.ofNat 8 n := by
  rw [← h, BitVec.ofNat_toNat, BitVec.setWidth_eq]

/-- What a word decodes to is well formed, has the word's opcode, and its data bytes stood after the word. -/
theorem decodeWord_eq_instr {w : CommandWord} {items rest : List PortItem} {i : Instr}
    (h : decodeWord w items = .instr i rest) :
    WellFormed i ∧ items = (dataBytes i).map .data ++ rest ∧ opField w = opcode i := by
  unfold decodeWord at h
  split at h
  case h_7 hop =>
    obtain ⟨data, rfl, hlength, hitems⟩ := decodeWrite_eq_instr h
    exact ⟨decide_eq_true hlength, hitems, opField_eq_ofNat hop⟩
  case h_11 => cases h
  all_goals
    next hop =>
    cases h
    exact ⟨rfl, rfl, opField_eq_ofNat hop⟩

/-- Settles O15: a word stood at the front of the port, and the rest is `decodeWord_eq_instr`. -/
theorem decodedInstructionIsWellFormed : Obligations.DecodedInstructionIsWellFormed := by
  intro items rest i h
  match items with
  | [] => cases h
  | .data _ :: _ => cases h
  | .word w :: items =>
    obtain ⟨hw, rfl, hop⟩ := decodeWord_eq_instr h
    exact ⟨hw, w, rfl, hop⟩

/-! ### Operand bits -/

/-- Words that agree under a mask agree in every field the mask covers. -/
theorem extractLsb'_eq_of_and_eq {w w' mask : CommandWord} (h : w &&& mask = w' &&& mask) (start len : Nat)
    (hmask : mask.extractLsb' start len = BitVec.allOnes len) : w.extractLsb' start len = w'.extractLsb' start len := by
  have hfield := congrArg (·.extractLsb' start len) h
  simpa [BitVec.extractLsb'_and, hmask] using hfield

/-- The opcode field is named for every opcode. -/
theorem namedBits_opField (op : Byte) : (Machine.namedBits op).extractLsb' 32 8 = BitVec.allOnes 8 := by
  unfold Machine.namedBits
  split <;> rfl

theorem byteOperand_eq_extract (w : CommandWord) : byteOperand w = w.extractLsb' 0 8 :=
  BitVec.extractLsb'_extractLsb'_of_le (by decide)

theorem boolOperand_eq_extract (w : CommandWord) : boolOperand w = (w.extractLsb' 0 1).getLsbD 0 := by
  simp [boolOperand, bField]

/-- Settles O16: the opcodes agree and select the same arm, and the mask of its opcode covers each operand the arm reads. -/
theorem unnamedOperandBitsAreIgnored : Obligations.UnnamedOperandBitsAreIgnored := by
  intro w w' rest (h : w &&& Machine.namedBits (opField w) = w' &&& Machine.namedBits (opField w))
  show decodeWord w rest = decodeWord w' rest
  have hop : opField w = opField w' := extractLsb'_eq_of_and_eq h 32 8 (namedBits_opField _)
  unfold decodeWord
  rw [← hop]
  split
  case h_1 => rfl
  case h_2 hn =>
    rw [opField_eq_ofNat hn] at h
    have ha : aField w = aField w' := extractLsb'_eq_of_and_eq h 16 16 rfl
    have hb : bField w = bField w' := extractLsb'_eq_of_and_eq h 0 16 rfl
    rw [ha, hb]
  case h_3 hn | h_5 hn | h_8 hn | h_9 hn | h_10 hn =>
    rw [opField_eq_ofNat hn] at h
    simp only [byteOperand_eq_extract]
    rw [extractLsb'_eq_of_and_eq h 0 8 rfl]
  case h_4 hn =>
    rw [opField_eq_ofNat hn] at h
    rw [boolOperand_eq_extract, boolOperand_eq_extract, extractLsb'_eq_of_and_eq h 0 1 rfl]
  case h_6 hn | h_7 hn =>
    rw [opField_eq_ofNat hn] at h
    have hb : bField w = bField w' := extractLsb'_eq_of_and_eq h 0 16 rfl
    rw [hb]
  case h_11 => rfl

/-- Settles O17: the decoder run on each of the 22 rows. -/
theorem wordsOfTheSpecDecodeAsListed : Obligations.WordsOfTheSpecDecodeAsListed := by
  unfold Obligations.WordsOfTheSpecDecodeAsListed
  decide

/-! ### What is not decoded -/

theorem decodeWord_of_reserved {w : CommandWord} (h : 0x0A ≤ opField w) (items : List PortItem) :
    decodeWord w items = .invalid (.reservedOpcode (opField w)) := by
  have hop : 10 ≤ (opField w).toNat := h
  unfold decodeWord
  split
  case h_11 => rfl
  all_goals omega

/-- A `writeFIFO` word takes nothing when the end of the port or the next word comes before its last data byte. -/
theorem takeData_map_data_of_short {n : Nat} {data : List Byte} {rest : List PortItem} (hshort : data.length < n)
    (hrest : rest = [] ∨ ∃ w' rest', rest = .word w' :: rest') : takeData n (data.map .data ++ rest) = none := by
  induction data generalizing n with
  | nil =>
    obtain ⟨n, rfl⟩ := Nat.exists_eq_add_of_lt hshort
    rcases hrest with rfl | ⟨w', rest', rfl⟩ <;> rfl
  | cons x xs ih =>
    cases n with
    | zero => exact absurd hshort (Nat.not_lt_zero _)
    | succ n =>
      have htail := ih (Nat.lt_of_succ_lt_succ hshort)
      simp [takeData, htail]

theorem decodeWord_of_short {w : CommandWord} {data : List Byte} {rest : List PortItem} (hop : opField w = 0x06)
    (hshort : data.length < (bField w).toNat) (hrest : rest = [] ∨ ∃ w' rest', rest = .word w' :: rest') :
    decodeWord w (data.map .data ++ rest) = .invalid (.shortData (bField w)) := by
  have hwrite : decodeWord w (data.map .data ++ rest) = decodeWrite (bField w) (data.map .data ++ rest) := by
    rw [decodeWord, hop]; rfl
  rw [hwrite, decodeWrite, takeData_map_data_of_short hshort hrest]

end Sys2Proof

/-! ### The step -/

namespace Sys2Proof.Machine

theorem step_of_decode {s : State} {i : Instr} {rest : List PortItem} (h : decode s.commands = .instr i rest) :
    step s = exec i (writeCommands rest s) := by
  rw [step, fetch, h]

theorem step_of_invalid {s : State} {why : InvalidReason} (h : decode s.commands = .invalid why) :
    step s = .refused (.invalidCommand why) := by
  rw [step, fetch, h]

/-- Settles O20: the first clause is `step_of_decode`, the second the first on what `encode` is decoded to. -/
theorem stepRunsTheDecodedInstruction : Obligations.StepRunsTheDecodedInstruction :=
  ⟨fun _ _ _ => step_of_decode,
    fun _ i rest hw hport => step_of_decode (hport ▸ decodeOfEncodeIsTheInstruction i rest hw)⟩

/-- Settles O18: `decodeWord_of_reserved` on the word at the front of the port. -/
theorem reservedOpcodeIsRefused : Obligations.ReservedOpcodeIsRefused := fun _ _ rest hport hop =>
  step_of_invalid (hport ▸ decodeWord_of_reserved hop rest)

/-- Settles O19: `decodeWord_of_short` on the word at the front of the port. -/
theorem writeWithTooFewDataBytesIsRefused : Obligations.WriteWithTooFewDataBytesIsRefused :=
  fun _ _ _ _ hop hshort hrest hport => step_of_invalid (hport ▸ decodeWord_of_short hop hshort hrest)

end Sys2Proof.Machine
end

section
/-! PROOFS. What each operation does, as one equation (spec/41_config_commands.md, 42_buffer_commands.md R73,
43_radio_commands.md). -/
namespace Sys2Proof.Machine

/-! ### Configuration operations -/

theorem emitAll_emitAll (cs ds : List TCall) (s : State) : emitAll ds (emitAll cs s) = emitAll (cs ++ ds) s :=
  congrArg (fun trace => { s with trace }) (List.append_assoc ..)

/-- Settles O24: T0 to T5 and then Recompute's three calls are nine calls; the registers by definition. -/
theorem openReinitialisesAndProgramsTheTransceiver : Obligations.OpenReinitialisesAndProgramsTheTransceiver := by
  intro s
  show respond statusOk (recompute (emitAll (openCalls (reinitialise s).cfg) (reinitialise s))) = _
  rw [recompute, emitAll_emitAll, respond_eq]
  rfl

theorem syncwordChanged_eq_true_iff (sw0 sw3 : Half) (c : RadioConfiguration) :
    syncwordChanged sw0 sw3 c = true ↔ ¬ (sw0 = c.syncword0 ∧ sw3 = c.syncword3) := by
  simp [syncwordChanged, or_iff_not_imp_left]

theorem exec_setSyncword (sw0 sw3 : Half) (s : State) : exec (.setSyncword sw0 sw3) s =
    respond statusOk (emitAll
      (if syncwordChanged sw0 sw3 s.cfg then recomputeCalls s.params (writeSyncwords sw0 sw3 s).cfg else [])
      (writeSyncwords sw0 sw3 s)) :=
  congrArg (respond statusOk) (recomputeIf_eq ..)

/-- Settles O25: Recompute emits its three calls when a half differs, and writes no register. -/
theorem setSyncwordStoresAndRecomputesWhenChanged : Obligations.SetSyncwordStoresAndRecomputesWhenChanged := by
  intro sw0 sw3 s
  rw [exec_setSyncword, respond_eq]
  simp only [syncwordChanged_eq_true_iff, ite_not]
  rfl

theorem maxPacketLengthChanged_eq_true_iff (n : Byte) (c : RadioConfiguration) :
    maxPacketLengthChanged n c = true ↔ ¬ n = c.maxPacketLength :=
  bne_iff_ne

theorem exec_setMaxPacketLength (n : Byte) (s : State) : exec (.setMaxPacketLength n) s =
    respond statusOk (emitAll
      (if maxPacketLengthChanged n s.cfg then recomputeCalls s.params (writeMaxPacketLength n s).cfg else [])
      (writeMaxPacketLength n s)) :=
  congrArg (respond statusOk) (recomputeIf_eq ..)

/-- The payload size as the number it is. -/
theorem payloadSize_eq_ofNat (c : RadioConfiguration) : c.payloadSize = BitVec.ofNat 9 (c.maxPacketLength.toNat + 2) := by
  rw [← payloadSize_toNat, BitVec.ofNat_toNat, BitVec.setWidth_eq]

/-- Settles O26: Recompute emits its three calls when the length differs, and writes no register. -/
theorem setMaxPacketLengthStoresAndRecomputesWhenChanged : Obligations.SetMaxPacketLengthStoresAndRecomputesWhenChanged := by
  intro n s
  rw [exec_setMaxPacketLength, respond_eq]
  simp only [maxPacketLengthChanged_eq_true_iff, ite_not, recomputeCalls, payloadSize_eq_ofNat]
  rfl

/-- Settles O27: the definition of `setCRC`, run. -/
theorem setCrcStoresItsOperand : Obligations.SetCrcStoresItsOperand := fun _ _ => rfl

/-- Settles O28: the definitions of both operations, run. -/
theorem preambleAndTrailerLengthOnlyRespond : Obligations.PreambleAndTrailerLengthOnlyRespond := fun _ _ => ⟨rfl, rfl⟩

/-! ### writeFIFO and readFIFO -/

/-- What `writeFIFO` does, also to a term with too many or too few data bytes. -/
theorem exec_writeFIFO_eq_next (length : Half) (data : List Byte) (s : State) : exec (.writeFIFO length data) s = .next { s with
    buf := data.take (min data.length s.params.cap)
    receivedFlag := false
    responses := s.responses ++ [lengthResponse (lengthValue (min data.length s.params.cap))] } := rfl

/-- Settles O32: `bufRead`'s three results, a request beyond the end of the buffer being one for all of it. -/
theorem readFifoDrainsFromTheFront : Obligations.ReadFifoDrainsFromTheFront := by
  intro maxLength s
  have hout : s.buf.take (min maxLength.toNat s.buf.length) = s.buf.take maxLength.toNat := List.take_eq_take_min.symm
  have hleft : s.buf.drop (min maxLength.toNat s.buf.length) = s.buf.drop maxLength.toNat := List.drop_eq_drop_min.symm
  have hremaining : s.buf.length - min maxLength.toNat s.buf.length = s.buf.length - maxLength.toNat := by omega
  rw [exec_readFIFO, bufRead_remaining, bufRead_state, bufRead_out, hout, hleft, hremaining, respond_eq, readResponse,
    List.length_take]
  rfl

/-! ### transmit -/

/-- The whole buffer is framed and written three times. -/
theorem transmitCalls_eq (s : State) :
    transmitCalls s = List.replicate 3 (.writeBytes (frameEncode s.buf) (s.buf.length + 2)) := by
  have hall : memRead s.length s = s.buf := List.take_length
  rw [transmitCalls, hall]
  rfl

/-- Settles O37: selecting the channel leaves the buffer, so the frame is that of the buffer at the start. -/
theorem transmitWritesTheFramedBufferThreeTimes : Obligations.TransmitWritesTheFramedBufferThreeTimes := by
  intro c s
  show respond statusOk (transmitBody c s) = _
  rw [transmitBody, selectChannel_eq, transmitCalls_eq, emitAll_emitAll, respond_eq]
  simp only [emitAll, writeChannel, writeListening, emit, List.append_assoc]
  rfl

/-! ### receive -/

/-- What one poll does when no data is available. -/
theorem pollOnce_of_no_data {s : State} (hdata : s.dataComing = false) :
    pollOnce s = writeAnswers s.answers.nextAvailable.2 (emit .isDataAvailable s) := by
  obtain ⟨-, hs⟩ | ⟨hyes, -⟩ := pollOnce_cases s
  · exact hs
  · exact absurd (hdata.symm.trans hyes) (by decide)

/-- What one poll does when data is available and the frame is rejected. -/
theorem pollOnce_of_rejected {s : State} (hdata : s.dataComing = true)
    (hframe : frameDecode s.frameComing s.cfg.crcEnabled = none) :
    pollOnce s = writeAnswers s.answersAfterFrame (emitAll [.isDataAvailable, .readBytes s.cfg.payloadSize] s) := by
  obtain ⟨hno, -⟩ | ⟨-, r, a, hr, hs⟩ := pollOnce_cases s
  · exact absurd (hdata.symm.trans hno) (by decide)
  · have hcoming : s.frameComing = r := congrArg Prod.fst hr
    have hafter : s.answersAfterFrame = a := congrArg Prod.snd hr
    subst hcoming hafter
    obtain ⟨-, hs⟩ | ⟨payload, haccepted, -⟩ := hs
    · exact hs
    · cases hframe.symm.trans haccepted

/-- `receive` when no data is available (spec/43_radio_commands.md R78). -/
theorem exec_receive_of_no_data (c : Byte) {s : State} (hdata : s.dataComing = false) :
    exec (.receive c) s = .next { s with
      cfg := { s.cfg with channel := c }
      listening := true
      answers := s.answers.nextAvailable.2
      trace := s.trace ++ (if c = s.cfg.channel then [] else [.setChannel c]) ++ [.startListening, .isDataAvailable]
      responses := s.responses ++ [lengthResponse (receivedLength s)] } := by
  have hbody : receiveBody c s = writeAnswers s.answers.nextAvailable.2
      (emit .isDataAvailable (writeListening true (emit .startListening (selectChannel c s)))) := by
    rw [receiveBody, selectChannel_eq]
    exact pollOnce_of_no_data hdata
  rw [exec_receive, hbody, selectChannel_eq, respond_eq]
  simp [receivedLength, writeAnswers, emitAll, writeListening, emit, writeChannel]

/-- `receive` of a rejected frame: it is consumed, and otherwise no data was available (spec/60_exceptions.md R85). -/
theorem exec_receive_of_rejected (c : Byte) {s : State} (hdata : s.dataComing = true)
    (hframe : frameDecode s.frameComing s.cfg.crcEnabled = none) :
    exec (.receive c) s = .next { s with
      cfg := { s.cfg with channel := c }
      listening := true
      answers := s.answersAfterFrame
      trace := s.trace ++ (if c = s.cfg.channel then [] else [.setChannel c]) ++
        [.startListening, .isDataAvailable, .readBytes s.cfg.payloadSize]
      responses := s.responses ++ [lengthResponse (receivedLength s)] } := by
  have hbody : receiveBody c s = writeAnswers s.answersAfterFrame
      (emitAll [.isDataAvailable, .readBytes s.cfg.payloadSize]
        (writeListening true (emit .startListening (selectChannel c s)))) := by
    rw [receiveBody, selectChannel_eq]
    exact pollOnce_of_rejected hdata hframe
  rw [exec_receive, hbody, selectChannel_eq, respond_eq]
  simp [receivedLength, writeAnswers, emitAll, writeListening, emit, writeChannel]

/-- What `receive` can do, every path of it: the buffer is kept or replaced by at most `CAP` bytes, a frame is read or not,
and no more than the buffer's length is returned. -/
theorem exec_receive_cases {c : Byte} {s t : State} (h : exec (.receive c) s = .next t) :
    ∃ buf receivedFlag answers reads n,
      t = { s with
        cfg := { s.cfg with channel := c }
        buf := buf
        receivedFlag := receivedFlag
        listening := true
        answers := answers
        trace := s.trace ++ (if c = s.cfg.channel then [] else [.setChannel c]) ++
          .startListening :: .isDataAvailable :: reads
        responses := s.responses ++ [lengthResponse (lengthValue n)] } ∧
      (buf = s.buf ∨ ∃ payload : List Byte, buf = payload.take s.params.cap) ∧
      (reads = [] ∨ reads = [.readBytes s.cfg.payloadSize]) ∧
      n ≤ buf.length := by
  obtain ⟨n, hn, hreceived⟩ : ∃ n ≤ s.buf.length, receivedLength s = lengthValue n := by
    cases hflag : s.receivedFlag with
    | false => exact ⟨0, Nat.zero_le _, receivedLength_of_flag_clear hflag⟩
    | true => exact ⟨s.buf.length, le_rfl, if_pos hflag⟩
  cases hdata : s.dataComing with
  | false =>
    rw [exec_receive_of_no_data c hdata, hreceived] at h
    cases h
    exact ⟨_, _, _, _, n, rfl, .inl rfl, .inl rfl, hn⟩
  | true =>
    cases hframe : frameDecode s.frameComing s.cfg.crcEnabled with
    | none =>
      rw [exec_receive_of_rejected c hdata hframe, hreceived] at h
      cases h
      exact ⟨_, _, _, _, n, rfl, .inl rfl, .inr rfl, hn⟩
    | some payload =>
      rw [exec_receive_of_accepted c hdata hframe] at h
      cases h
      exact ⟨_, _, _, _, _, rfl, .inr ⟨payload, rfl⟩, .inr rfl, le_rfl⟩

/-- Settles O33: `exec_receive_of_no_data`. -/
theorem receiveWithoutDataOnlyListens : Obligations.ReceiveWithoutDataOnlyListens := fun c _ hdata =>
  exec_receive_of_no_data c hdata

/-- The frame to come is as long as the payload size says. -/
theorem frameComing_length (s : State) : s.frameComing.length = s.cfg.maxPacketLength.toNat + 2 := by
  rw [State.frameComing, nextBytes_length, payloadSize_toNat]

/-- Settles O34: the good trailer makes the frame an accepted one, two bytes longer than its payload. -/
theorem receiveStoresAFrameWithAGoodCrc : Obligations.ReceiveStoresAFrameWithAGoodCrc := by
  intro c s payload hdata hcrc hframe
  have hlength : payload.length = s.cfg.maxPacketLength.toNat := by
    have := congrArg List.length hframe
    rw [List.length_map, frameComing_length, List.length_append] at this
    exact (Nat.add_right_cancel this).symm
  have haccepted : frameDecode s.frameComing s.cfg.crcEnabled = some payload := by
    obtain ⟨-, hgood, -⟩ := frameDecodeChecksTheLastTwoBytes _ _ _ _ hframe
    rw [hcrc, hgood ⟨rfl, rfl⟩]
  refine ⟨hlength, ?_⟩
  rw [exec_receive_of_accepted c hdata haccepted, payloadSize_eq_ofNat, List.length_take, hlength, Nat.min_comm]
  rfl

/-- Settles O35: a trailer byte that differs makes the frame a rejected one. -/
theorem receiveDropsAFrameWithABadCrc : Obligations.ReceiveDropsAFrameWithABadCrc := by
  intro c s payload lo hi hdata hcrc hframe hbad
  have hrejected : frameDecode s.frameComing s.cfg.crcEnabled = none := by
    obtain ⟨-, -, hrejects⟩ := frameDecodeChecksTheLastTwoBytes _ _ _ _ hframe
    rw [hcrc, hrejects hbad]
  rw [exec_receive_of_rejected c hdata hrejected, payloadSize_eq_ofNat]
  rfl

/-- Settles O36: with validation off every frame is accepted whole. -/
theorem receiveWithoutValidationKeepsEveryByte : Obligations.ReceiveWithoutValidationKeepsEveryByte := by
  intro c s hdata hcrc
  have haccepted : frameDecode s.frameComing s.cfg.crcEnabled = some (s.frameComing.map reverse) := by
    rw [hcrc, frameDecode_off]
  rw [exec_receive_of_accepted c hdata haccepted, payloadSize_eq_ofNat, List.length_take, List.length_map,
    frameComing_length, Nat.min_comm]
  rfl

end Sys2Proof.Machine
end

section
/-! PROOFS. Which registers an operation writes and reads, and which calls it emits (spec/10_state.md, 30_encoding.md 3). -/
namespace Sys2Proof.Machine

theorem eq_of_exec {i : Instr} {s t u : State} (h : exec i s = .next t) (hu : exec i s = .next u) : t = u :=
  Host.Outcome.next.inj (h.symm.trans hu)

/-! ### Writers -/

/-- Settles O42: each operation's equation leaves the registers it does not write. -/
theorem registersChangeOnlyUnderTheirWriters : Obligations.RegistersChangeOnlyUnderTheirWriters := by
  intro i s t h
  cases i with
  | openRadio =>
    obtain rfl := eq_of_exec h (openReinitialisesAndProgramsTheTransceiver s)
    exact ⟨rfl, rfl, rfl, by simp⟩
  | setSyncword sw0 sw3 =>
    obtain rfl := eq_of_exec h (setSyncwordStoresAndRecomputesWhenChanged sw0 sw3 s)
    exact ⟨rfl, rfl, rfl, by simp⟩
  | setMaxPacketLength n =>
    obtain rfl := eq_of_exec h (setMaxPacketLengthStoresAndRecomputesWhenChanged n s)
    exact ⟨rfl, rfl, rfl, by simp⟩
  | setCRC enabled =>
    obtain rfl := eq_of_exec h (setCrcStoresItsOperand enabled s)
    exact ⟨rfl, rfl, rfl, by simp⟩
  | receive c =>
    obtain ⟨_, _, _, _, _, rfl, -⟩ := exec_receive_cases h
    exact ⟨rfl, rfl, rfl, by simp⟩
  | readFIFO n =>
    obtain rfl := eq_of_exec h (readFifoDrainsFromTheFront n s)
    exact ⟨rfl, rfl, rfl, by simp⟩
  | writeFIFO n data =>
    obtain rfl := eq_of_exec h (exec_writeFIFO_eq_next n data s)
    exact ⟨rfl, rfl, rfl, by simp⟩
  | transmit c =>
    obtain rfl := eq_of_exec h (transmitWritesTheFramedBufferThreeTimes c s)
    exact ⟨rfl, rfl, rfl, by simp⟩
  | setPreambleLength n =>
    obtain rfl := eq_of_exec h (preambleAndTrailerLengthOnlyRespond n s).left
    exact ⟨rfl, rfl, rfl, by simp⟩
  | setTrailerLength n =>
    obtain rfl := eq_of_exec h (preambleAndTrailerLengthOnlyRespond n s).right
    exact ⟨rfl, rfl, rfl, by simp⟩

/-! ### Readers -/

/-- `i` does not read what the register write `w` changes: run after `w`, it gives the same response and the state it gives
without `w`, but that what `w` wrote may still be there. -/
def Ignores (i : Instr) (w : State → State) : Prop :=
  ∀ s, ∃ r u, exec i s = respond r u ∧ (exec i (w s) = respond r u ∨ exec i (w s) = respond r (w u))

theorem ignores_writeListening (i : Instr) (v : Bool) : Ignores i (writeListening v) := by
  intro s
  cases i with
  | openRadio => exact ⟨_, _, rfl, .inl rfl⟩
  | setSyncword sw0 sw3 =>
    simp only [exec_setSyncword]
    exact ⟨_, _, rfl, .inr rfl⟩
  | setMaxPacketLength n =>
    simp only [exec_setMaxPacketLength]
    exact ⟨_, _, rfl, .inr rfl⟩
  | setCRC => exact ⟨_, _, rfl, .inr rfl⟩
  | receive c =>
    have hbody : receiveBody c (writeListening v s) = receiveBody c s := by
      simp only [receiveBody, selectChannel_eq]
      rfl
    simp only [exec_receive, hbody]
    exact ⟨_, _, rfl, .inl rfl⟩
  | readFIFO => exact ⟨_, _, rfl, .inr rfl⟩
  | writeFIFO => exact ⟨_, _, rfl, .inr rfl⟩
  | transmit => exact ⟨_, _, rfl, .inl rfl⟩
  | setPreambleLength => exact ⟨_, _, rfl, .inr rfl⟩
  | setTrailerLength => exact ⟨_, _, rfl, .inr rfl⟩

theorem ignores_writeCrcEnabled {i : Instr} (hi : ∀ c, i ≠ .receive c) (v : Bool) : Ignores i (writeCrcEnabled v) := by
  intro s
  cases i with
  | openRadio => exact ⟨_, _, rfl, .inl rfl⟩
  | setSyncword sw0 sw3 =>
    simp only [exec_setSyncword]
    exact ⟨_, _, rfl, .inr rfl⟩
  | setMaxPacketLength n =>
    simp only [exec_setMaxPacketLength]
    exact ⟨_, _, rfl, .inr rfl⟩
  | setCRC => exact ⟨_, _, rfl, .inl rfl⟩
  | receive c => exact absurd rfl (hi c)
  | readFIFO => exact ⟨_, _, rfl, .inr rfl⟩
  | writeFIFO => exact ⟨_, _, rfl, .inr rfl⟩
  | transmit c =>
    have hbody : transmitBody c (writeCrcEnabled v s) = writeCrcEnabled v (transmitBody c s) := by
      simp only [transmitBody, selectChannel_eq]
      rfl
    exact ⟨_, _, rfl, .inr (congrArg (respond statusOk) hbody)⟩
  | setPreambleLength => exact ⟨_, _, rfl, .inr rfl⟩
  | setTrailerLength => exact ⟨_, _, rfl, .inr rfl⟩

/-- Settles O44: `ignores_writeListening`; with `listening` put back, what is left of the write is undone. -/
theorem noOperationReadsListening : Obligations.NoOperationReadsListening := by
  intro i s t v h
  obtain ⟨r, u, hexec, hsame | hwritten⟩ := ignores_writeListening i v s
  · exact ⟨t, hsame.trans (hexec.symm.trans h), rfl⟩
  · obtain rfl := eq_of_exec h hexec
    exact ⟨_, hwritten, rfl⟩

/-- Settles O45: `ignores_writeCrcEnabled`; with `crcEnabled` put back, what is left of the write is undone. -/
theorem onlyReceiveReadsCrcEnabled : Obligations.OnlyReceiveReadsCrcEnabled := by
  intro i s t v hi h
  obtain ⟨r, u, hexec, hsame | hwritten⟩ := ignores_writeCrcEnabled hi v s
  · exact ⟨t, hsame.trans (hexec.symm.trans h), rfl⟩
  · obtain rfl := eq_of_exec h hexec
    exact ⟨_, hwritten, rfl⟩

/-! ### Calls -/

theorem map_code_ite_mem {P : Prop} [Decidable P] (cs : List TCall) :
    (if P then [] else cs).map TCall.code ∈ [[], cs.map TCall.code] := by
  split <;> simp

/-- Settles O46: the calls of each operation's equation, by number; an optional group is there or not. -/
theorem eachOperationEmitsItsOwnCalls : Obligations.EachOperationEmitsItsOwnCalls := by
  intro i s t h
  cases i with
  | openRadio =>
    obtain rfl := eq_of_exec h (openReinitialisesAndProgramsTheTransceiver s)
    exact ⟨_, rfl, rfl⟩
  | setSyncword sw0 sw3 =>
    obtain rfl := eq_of_exec h (setSyncwordStoresAndRecomputesWhenChanged sw0 sw3 s)
    exact ⟨_, rfl, map_code_ite_mem _⟩
  | setMaxPacketLength n =>
    obtain rfl := eq_of_exec h (setMaxPacketLengthStoresAndRecomputesWhenChanged n s)
    exact ⟨_, rfl, map_code_ite_mem _⟩
  | setCRC enabled =>
    obtain rfl := eq_of_exec h (setCrcStoresItsOperand enabled s)
    exact ⟨[], (List.append_nil _).symm, rfl⟩
  | receive c =>
    obtain ⟨_, _, _, reads, _, rfl, -, hreads, -⟩ := exec_receive_cases h
    refine ⟨_, List.append_assoc .., ?_⟩
    by_cases hc : c = s.cfg.channel <;> obtain rfl | rfl := hreads <;> simp [hc, TCall.code]
  | readFIFO n =>
    obtain rfl := eq_of_exec h (readFifoDrainsFromTheFront n s)
    exact ⟨[], (List.append_nil _).symm, rfl⟩
  | writeFIFO n data =>
    obtain rfl := eq_of_exec h (exec_writeFIFO_eq_next n data s)
    exact ⟨[], (List.append_nil _).symm, rfl⟩
  | transmit c =>
    obtain rfl := eq_of_exec h (transmitWritesTheFramedBufferThreeTimes c s)
    refine ⟨_, (congrArg (· ++ _) (List.append_assoc ..)).trans (List.append_assoc ..), ?_⟩
    by_cases hc : c = s.cfg.channel <;> simp [hc, TCall.code]
  | setPreambleLength n =>
    obtain rfl := eq_of_exec h (preambleAndTrailerLengthOnlyRespond n s).left
    exact ⟨[], (List.append_nil _).symm, rfl⟩
  | setTrailerLength n =>
    obtain rfl := eq_of_exec h (preambleAndTrailerLengthOnlyRespond n s).right
    exact ⟨[], (List.append_nil _).symm, rfl⟩

/-! ### The state view -/

/-- `listening` after each operation (spec/10_state.md R26). -/
theorem exec_listening {i : Instr} {s t : State} (h : exec i s = .next t) :
    t.listening = match i with
      | .openRadio => false
      | .receive _ => true
      | .transmit _ => false
      | _ => s.listening := by
  cases i with
  | openRadio => obtain rfl := eq_of_exec h (openReinitialisesAndProgramsTheTransceiver s); rfl
  | receive c => obtain ⟨_, _, _, _, _, rfl, -⟩ := exec_receive_cases h; rfl
  | transmit c => obtain rfl := eq_of_exec h (transmitWritesTheFramedBufferThreeTimes c s); rfl
  | _ =>
    obtain ⟨-, -, -, -, -, -, -, -, -, hlistening, -⟩ := registersChangeOnlyUnderTheirWriters _ s t h
    exact not_not.mp fun hne => by simpa using hlistening hne

theorem view_eq_packetReady_iff (s : State) : s.view = .packetReady ↔ s.receivedFlag = true := by
  unfold State.view
  cases s.receivedFlag <;> cases s.listening <;> simp

theorem view_of_flag_clear {s : State} (h : s.receivedFlag = false) :
    s.view = if s.listening then .listening else .idle := by
  rw [State.view, h]
  rfl

theorem view_congr {s t : State} (hflag : t.receivedFlag = s.receivedFlag) (hlistening : t.listening = s.listening) :
    t.view = s.view := by
  rw [State.view, State.view, hflag, hlistening]

/-- Settles O47: the view is computed from the flag (`receivedFlagIsSetOnlyByAnAcceptedFrame`) and from `listening`
(`exec_listening`). -/
theorem stateViewFollowsTheTransitionTable : Obligations.StateViewFollowsTheTransitionTable := by
  intro i s t h
  have hflag := receivedFlagIsSetOnlyByAnAcceptedFrame.left i s t h
  have hlistening := exec_listening h
  cases i with
  | openRadio => rw [view_of_flag_clear hflag, hlistening]; rfl
  | writeFIFO n data => rw [view_of_flag_clear hflag, hlistening]
  | receive c =>
    simp only [view_eq_packetReady_iff]
    rw [State.view, hflag, hlistening]
    cases s.acceptsFrame <;> rfl
  | transmit c =>
    simp only [view_eq_packetReady_iff]
    rw [State.view, hflag, hlistening]
    rfl
  | _ => exact view_congr hflag hlistening

end Sys2Proof.Machine
end

section
/-! PROOFS. Sequences of operations (spec/42_buffer_commands.md, Laws; 43_radio_commands.md, Laws; 20_memory.md, 3). -/
namespace Sys2Proof.Machine

/-! ### Writing, then reading -/

/-- `readFIFO` of at least the whole buffer returns all of it. -/
theorem exec_readFIFO_of_length_le {n : Half} {s : State} (hn : s.buf.length ≤ n.toNat) :
    exec (.readFIFO n) s = .next { s with
      buf := []
      responses := s.responses ++ [⟨0, BitVec.ofNat 16 s.buf.length, s.buf⟩] } := by
  rw [exec_readFIFO, bufRead_of_length_le hn]
  rfl

/-- Settles O50: the read drains the `min n CAP` bytes the write left, as it asks for at least as many. -/
theorem readAfterWriteGivesBackTheData : Obligations.ReadAfterWriteGivesBackTheData := by
  intro n data s hw
  have hlength : (data.take (min n.toNat s.params.cap)).length = min n.toNat s.params.cap :=
    List.length_take_of_le (((wellFormed_writeFIFO_iff n data).mp hw).symm ▸ Nat.min_le_left ..)
  refine ⟨_, _, writeFifoReplacesTheBuffer n data s hw,
    exec_readFIFO_of_length_le (hlength.trans_le (Nat.min_le_left ..)), rfl, ?_⟩
  simp only [hlength]

/-! ### Successive reads -/

/-- Settles O51: one read returns the front of the buffer and leaves the rest, from which the others go on. -/
theorem successiveReadsDrainInOrder : Obligations.SuccessiveReadsDrainInOrder := by
  intro ns
  induction ns with
  | nil =>
    exact fun s => ⟨s, [], rfl, (List.append_nil _).symm, rfl, rfl,
      fun h => List.eq_nil_of_length_eq_zero (Nat.le_zero.mp h)⟩
  | cons n ns ih =>
    intro s
    have hread := readFifoDrainsFromTheFront n s
    obtain ⟨t, rs, hreads, hresponses, hlength, hdata, hempty⟩ := ih { s with
      buf := s.buf.drop n.toNat
      responses := s.responses ++
        [⟨BitVec.ofNat 16 (s.buf.length - n.toNat), BitVec.ofNat 16 (min n.toNat s.buf.length), s.buf.take n.toNat⟩] }
    refine ⟨t, _ :: rs, ?_, hresponses.trans (List.append_assoc ..), congrArg (· + 1) hlength, ?_, fun h => hempty ?_⟩
    · rw [State.afterReads, hread]
      exact hreads
    · calc ((_ :: rs).map (fun r => r.data)).flatten ++ t.buf
          = s.buf.take n.toNat ++ ((rs.map (fun r => r.data)).flatten ++ t.buf) := List.append_assoc ..
        _ = s.buf.take n.toNat ++ s.buf.drop n.toNat := congrArg (s.buf.take n.toNat ++ ·) hdata
        _ = s.buf := List.take_append_drop ..
    · rw [List.map_cons, List.sum_cons] at h
      rw [List.length_drop]
      omega

/-! ### Repeating an operation -/

/-- Settles O52: what the first run stored is what the second stores; the second `transmit` finds its channel already chosen. -/
theorem repeatedWriteOrTransmitChangesNoRegister : Obligations.RepeatedWriteOrTransmitChangesNoRegister := by
  refine ⟨fun n data s t u ht hu => ?write, fun c s t u ht hu => ?transmit⟩
  case write =>
    obtain rfl := eq_of_exec ht (exec_writeFIFO_eq_next n data s)
    obtain rfl := eq_of_exec hu (exec_writeFIFO_eq_next n data _)
    exact ⟨rfl, rfl⟩
  case transmit =>
    obtain rfl := eq_of_exec ht (transmitWritesTheFramedBufferThreeTimes c s)
    obtain rfl := eq_of_exec hu (transmitWritesTheFramedBufferThreeTimes c _)
    refine ⟨rfl, rfl, ?_⟩
    simp only [if_true, List.append_nil]
    rfl

/-! ### Transmitting and receiving -/

section Receiver
variable {r : State} {f later : List Byte} {more : List Bool} (havailable : r.answers.available = true :: more)
  (hbytes : r.answers.bytes = f ++ later) (hlength : f.length = r.cfg.maxPacketLength.toNat + 2)
include havailable

theorem dataComing_of_available : r.dataComing = true := by
  rw [State.dataComing, nextAvailable_given _ _ _ havailable]

include hbytes hlength in
/-- The frame to come is the given one when its length is the one asked for. -/
theorem frameComing_of_bytes : r.frameComing = f := by
  rw [State.frameComing, nextAvailable_given _ _ _ havailable, payloadSize_toNat, ← hlength]
  exact congrArg Prod.fst (nextBytes_given f later { r.answers with available := more } hbytes)

end Receiver

/-- Settles O53: the frame is `frameEncode` of the sender's buffer; `frameDecode` gives the receiver the packet back, with its
trailer when validation is off, and within `CAP` the buffer holds all of it. -/
theorem transmittedPacketIsReceivedIntact : Obligations.TransmittedPacketIsReceivedIntact := by
  intro sender sent c hsent
  obtain rfl := eq_of_exec hsent (transmitWritesTheFramedBufferThreeTimes c sender)
  refine ⟨_, frameEncode sender.buf, rfl, fun r ch more later havailable hbytes hmax => ?_⟩
  have hdata := dataComing_of_available havailable
  have hframe : r.frameComing = frameEncode sender.buf :=
    frameComing_of_bytes havailable hbytes (by rw [frameEncode_length, hmax]; rfl)
  obtain ⟨hon, hoff⟩ := frameDecodeUndoesFrameEncode sender.buf
  refine ⟨fun hcrc hcap => ?validated, fun hcrc hcap => ?unvalidated⟩
  case validated =>
    rw [← hframe, ← hcrc] at hon
    have hreceive := exec_receive_of_accepted ch hdata hon
    rw [List.take_of_length_le hcap] at hreceive
    have hn : (BitVec.ofNat 16 sender.buf.length).toNat = sender.buf.length := Nat.mod_eq_of_lt (by omega)
    exact ⟨_, _, hreceive, exec_readFIFO_of_length_le hn.ge, rfl, List.append_assoc ..⟩
  case unvalidated =>
    rw [← hframe, ← hcrc] at hoff
    have hreceive := exec_receive_of_accepted ch hdata hoff
    rw [List.take_of_length_le (by simpa using hcap), List.length_append] at hreceive
    exact ⟨_, hreceive, rfl, rfl, rfl⟩

end Sys2Proof.Machine
end

section
/-! PROOFS. Reset, and what every step keeps (spec/70_reset_and_hazards.md, 1; 10_state.md, 3 and 4; 41_config_commands.md,
Recompute). -/
namespace Sys2Proof.Machine

/-! ### Reset -/

/-- Settles O21: every register of `resetOf` by definition. -/
theorem resetStateHoldsTheResetValues : Obligations.ResetStateHoldsTheResetValues :=
  ⟨fun _ => ⟨rfl, rfl, rfl, rfl, rfl, rfl, rfl, rfl, rfl, rfl, rfl, rfl, rfl, rfl⟩, rfl⟩

theorem resetOf_inv {p : Params} (hp : p.Wf) : (State.resetOf p).Inv where
  params := hp
  buf := resetOf_wf p
  trace _ hc := absurd hc List.not_mem_nil
  responses _ hr := absurd hr List.not_mem_nil

theorem config_params_wf : Config.params.Wf := ⟨Nat.le_add_left .., Config.capLessOne.isLt⟩

/-- Settles O22: nothing has been emitted or answered at reset, and Config's parameters are legal. -/
theorem resetMeetsTheInvariant : Obligations.ResetMeetsTheInvariant :=
  ⟨fun _ => resetOf_inv, resetOf_inv config_params_wf⟩

theorem resetOf_mirrors (p : Params) : (State.resetOf p).Mirrors where
  payload _ h := nomatch h
  writePipe _ h := nomatch h
  readPipe _ h := nomatch h
  channel := rfl
  listening := rfl

/-- Settles O23: the empty trace has commanded nothing. -/
theorem resetMirrorsTheCallTrace : Obligations.ResetMirrorsTheCallTrace :=
  ⟨resetOf_mirrors, resetOf_mirrors Config.params⟩

/-! ### Sound calls and responses -/

theorem payloadSize_bounds (c : RadioConfiguration) : 2 ≤ c.payloadSize.toNat ∧ c.payloadSize.toNat ≤ 257 := by
  have := c.maxPacketLength.isLt
  rw [payloadSize_toNat]
  omega

theorem recomputeCalls_sound (p : Params) (cfg : RadioConfiguration) : ∀ c ∈ recomputeCalls p cfg, c.Sound p := by
  have haddress : ∃ s0 s3, cfg.address = deriveAddress s0 s3 := ⟨_, _, rfl⟩
  simp only [recomputeCalls, List.forall_mem_cons]
  exact ⟨payloadSize_bounds cfg, haddress, ⟨rfl, haddress⟩, nofun⟩

theorem recomputeCalls_if_sound (p : Params) (cfg : RadioConfiguration) (changed : Bool) :
    ∀ c ∈ if changed then recomputeCalls p cfg else [], c.Sound p := by
  cases changed with
  | false => nofun
  | true => exact recomputeCalls_sound p cfg

theorem openCalls_sound (p : Params) (cfg : RadioConfiguration) : ∀ c ∈ openCalls cfg, c.Sound p := by
  simp only [openCalls, List.forall_mem_cons]
  exact ⟨trivial, rfl, trivial, trivial, trivial, rfl, nofun⟩

theorem selectChannel_calls_sound (p : Params) (P : Prop) [Decidable P] (channel : Byte) :
    ∀ c ∈ if P then [] else [TCall.setChannel channel], c.Sound p := by
  split
  · nofun
  · exact List.forall_mem_singleton.mpr trivial

/-- Every frame CORE writes has its stated length and CRC residue 0. -/
theorem writeBytes_frameEncode_sound {p : Params} {buf : List Byte} (h : buf.length ≤ p.cap) :
    (TCall.writeBytes (frameEncode buf) (buf.length + 2)).Sound p :=
  ⟨frameEncode_length buf, Nat.le_add_left .., Nat.add_le_add_right h 2, crc16_frameEncode buf⟩

theorem lengthValue_toNat_le (n : Nat) : (lengthValue n).toNat ≤ n := Nat.mod_le ..

theorem lengthResponse_sound {p : Params} {n : Nat} (h : n ≤ p.cap) : (lengthResponse (lengthValue n)).Sound p := by
  refine ⟨rfl, ?_⟩
  show 0 + (lengthValue n).toNat ≤ p.cap
  have := lengthValue_toNat_le n
  omega

/-- What is read and what remains of a buffer within `CAP` are together no more than `CAP`. -/
theorem readResponse_sound {p : Params} {remaining : Nat} {out : List Byte} (hp : p.Wf)
    (h : out.length + remaining ≤ p.cap) : (readResponse remaining out).Sound p := by
  obtain ⟨-, hcap⟩ := hp
  have hcount : (lengthValue out.length).toNat = out.length := Nat.mod_eq_of_lt (by omega)
  have hremaining := lengthValue_toNat_le remaining
  refine ⟨hcount, ?_⟩
  show (lengthValue out.length).toNat + (lengthValue remaining).toNat ≤ p.cap
  omega

theorem statusOk_sound (p : Params) : statusOk.Sound p := lengthResponse_sound (Nat.zero_le _)

/-! ### The invariant -/

/-- An operation keeps the invariant when its buffer fits, its calls are sound and its response is. -/
theorem State.Inv.next {s t : State} {calls : List TCall} {r : Response} (hs : s.Inv) (hparams : t.params = s.params)
    (hbuf : t.buf.length ≤ s.params.cap) (htrace : t.trace = s.trace ++ calls) (hcalls : ∀ c ∈ calls, c.Sound s.params)
    (hresponses : t.responses = s.responses ++ [r]) (hr : r.Sound s.params) : t.Inv where
  params := hparams ▸ hs.params
  buf := (memory_wf_iff ..).mpr (hparams ▸ hbuf)
  trace := by
    rw [htrace, hparams, List.forall_mem_append]
    exact ⟨hs.trace, hcalls⟩
  responses := by
    rw [hresponses, hparams, List.forall_mem_append, List.forall_mem_singleton]
    exact ⟨hs.responses, hr⟩

/-- The same for an operation that emits no call. -/
theorem State.Inv.next_of_no_call {s t : State} {r : Response} (hs : s.Inv) (hparams : t.params = s.params)
    (hbuf : t.buf.length ≤ s.params.cap) (htrace : t.trace = s.trace) (hresponses : t.responses = s.responses ++ [r])
    (hr : r.Sound s.params) : t.Inv :=
  hs.next hparams hbuf (htrace.trans (List.append_nil _).symm) nofun hresponses hr

theorem exec_keeps_inv {i : Instr} {s t : State} (hs : s.Inv) (h : exec i s = .next t) : t.Inv := by
  have hfits : s.buf.length ≤ s.params.cap := (memory_wf_iff ..).mp hs.buf
  cases i with
  | openRadio =>
    obtain rfl := (respond_next_iff ..).mp h
    refine hs.next rfl (Nat.zero_le _) (List.append_assoc ..) ?_ rfl (statusOk_sound _)
    exact List.forall_mem_append.mpr ⟨openCalls_sound s.params _, recomputeCalls_sound s.params _⟩
  | setSyncword sw0 sw3 =>
    obtain rfl := (respond_next_iff ..).mp (exec_setSyncword sw0 sw3 s ▸ h)
    exact hs.next rfl hfits rfl (recomputeCalls_if_sound _ _ _) rfl (statusOk_sound _)
  | setMaxPacketLength n =>
    obtain rfl := (respond_next_iff ..).mp (exec_setMaxPacketLength n s ▸ h)
    exact hs.next rfl hfits rfl (recomputeCalls_if_sound _ _ _) rfl (statusOk_sound _)
  | setCRC enabled =>
    obtain rfl := eq_of_exec h (setCrcStoresItsOperand enabled s)
    exact hs.next_of_no_call rfl hfits rfl rfl (statusOk_sound _)
  | receive c =>
    obtain ⟨buf, _, _, reads, n, rfl, hbuf, hreads, hn⟩ := exec_receive_cases h
    have hfits' : buf.length ≤ s.params.cap := by
      obtain rfl | ⟨payload, rfl⟩ := hbuf
      · exact hfits
      · exact List.length_take_le ..
    have hreads' : ∀ c ∈ reads, c.Sound s.params := by
      obtain rfl | rfl := hreads
      · nofun
      · exact List.forall_mem_singleton.mpr (payloadSize_bounds s.cfg)
    refine hs.next rfl hfits' (List.append_assoc ..) ?_ rfl (lengthResponse_sound (hn.trans hfits'))
    simp only [List.forall_mem_append, List.forall_mem_cons]
    exact ⟨selectChannel_calls_sound _ _ _, trivial, trivial, hreads'⟩
  | readFIFO n =>
    obtain rfl := (respond_next_iff ..).mp (exec_readFIFO n s ▸ h)
    have hparts : (bufRead n.toNat s).out.length + (bufRead n.toNat s).remaining ≤ s.params.cap := by
      rw [bufRead_out, bufRead_remaining, List.length_take]
      omega
    exact hs.next_of_no_call rfl ((memory_wf_iff ..).mp (bufRead_wf _ s hs.buf)) rfl rfl
      (readResponse_sound hs.params hparts)
  | writeFIFO n data =>
    obtain rfl := (respond_next_iff ..).mp (exec_writeFIFO n data s ▸ h)
    exact hs.next_of_no_call rfl ((memory_wf_iff ..).mp (bufWrite_wf data s)) rfl rfl
      (lengthResponse_sound (Nat.min_le_right ..))
  | transmit c =>
    obtain rfl := eq_of_exec h (transmitWritesTheFramedBufferThreeTimes c s)
    have hwrite := writeBytes_frameEncode_sound hfits
    refine hs.next rfl hfits ((congrArg (· ++ _) (List.append_assoc ..)).trans (List.append_assoc ..)) ?_ rfl
      (statusOk_sound _)
    simp only [List.forall_mem_append, List.forall_mem_cons]
    exact ⟨⟨⟨trivial, nofun⟩, selectChannel_calls_sound _ _ _⟩, hwrite, hwrite, hwrite, nofun⟩
  | setPreambleLength n =>
    obtain rfl := eq_of_exec h (preambleAndTrailerLengthOnlyRespond n s).left
    exact hs.next_of_no_call rfl hfits rfl rfl (statusOk_sound _)
  | setTrailerLength n =>
    obtain rfl := eq_of_exec h (preambleAndTrailerLengthOnlyRespond n s).right
    exact hs.next_of_no_call rfl hfits rfl rfl (statusOk_sound _)

/-- Taking the command from the port touches nothing the invariant speaks of. -/
theorem writeCommands_inv {s : State} (items : List PortItem) (hs : s.Inv) : (writeCommands items s).Inv :=
  ⟨hs.params, hs.buf, hs.trace, hs.responses⟩

/-- Settles O39: a step is an operation, each of which keeps the invariant. -/
theorem stepKeepsTheInvariant : Obligations.StepKeepsTheInvariant := by
  intro s t hs h
  obtain ⟨i, rest, -, hexec⟩ := step_cases s t h
  exact exec_keeps_inv (writeCommands_inv rest hs) hexec

/-! ### Payload size and pipes -/

/-- What the trace has commanded of payload size and pipes. -/
def Commanded.programming (m : Commanded) : Option PayloadSize × Option Address × Option Address :=
  (m.payload, m.writePipe, m.readPipe)

theorem Commanded.programming_eq_iff (m m' : Commanded) : m.programming = m'.programming ↔
    m.payload = m'.payload ∧ m.writePipe = m'.writePipe ∧ m.readPipe = m'.readPipe := by
  simp [Commanded.programming]

/-- The calls from T9 on program neither payload size nor pipes. -/
theorem after_programming (m : Commanded) {c : TCall} (h : 9 ≤ c.code) : (m.after c).programming = m.programming := by
  cases c with
  | setPayloadSize => simp [TCall.code] at h
  | openWritingPipe => simp [TCall.code] at h
  | openReadingPipe => simp [TCall.code] at h
  | _ => rfl

theorem commanded_append_programming (trace : List TCall) {calls : List TCall} (h : ∀ c ∈ calls, 9 ≤ c.code) :
    (commanded (trace ++ calls)).programming = (commanded trace).programming := by
  rw [commanded_append]
  induction calls generalizing trace with
  | nil => rfl
  | cons c cs ih =>
    obtain ⟨hc, hcs⟩ := List.forall_mem_cons.mp h
    have hrest := ih (trace ++ [c]) hcs
    rw [commanded_append] at hrest
    exact hrest.trans (after_programming _ hc)

/-- Calls with one of the given sequences of numbers, all of them 9 or more. -/
theorem nine_le_code {calls : List TCall} {codes : List (List Nat)} (h : calls.map TCall.code ∈ codes)
    (hcodes : ∀ ns ∈ codes, ∀ n ∈ ns, 9 ≤ n) : ∀ c ∈ calls, 9 ≤ c.code := fun _ hc =>
  hcodes _ h _ (List.mem_map_of_mem hc)

/-- After Recompute payload size and pipes are programmed. -/
theorem programmed_of_recompute {s : State} {before : List TCall}
    (h : s.trace = before ++ recomputeCalls s.params s.cfg) : s.Programmed := by
  constructor <;> rw [h, commanded_append] <;> rfl

/-- From `s` to `t` neither the programming nor what it should be has changed. -/
structure State.KeepsProgramming (s t : State) : Prop where
  programming : (commanded t.trace).programming = (commanded s.trace).programming
  payloadSize : t.cfg.payloadSize = s.cfg.payloadSize
  address : t.cfg.address = s.cfg.address

theorem State.KeepsProgramming.programmed {s t : State} (h : s.KeepsProgramming t) (hs : s.Programmed) :
    t.Programmed := by
  obtain ⟨hprogramming, hsize, haddress⟩ := h
  obtain ⟨hpayload, hwrite, hread⟩ := (Commanded.programming_eq_iff ..).mp hprogramming
  exact ⟨by rw [hpayload, hsize, hs.payload], by rw [hwrite, haddress, hs.writePipe],
    by rw [hread, haddress, hs.readPipe]⟩

/-- `open` programs the transceiver from the reset configuration, its Recompute coming last. -/
theorem exec_openRadio_programmed {s t : State} (h : exec .openRadio s = .next t) : t.Programmed := by
  obtain rfl := (respond_next_iff ..).mp h
  exact programmed_of_recompute rfl

/-- When Recompute depends on a change, either it ran or there was none. -/
theorem programmed_or_keeps_of_recomputeIf {s t : State} {changed : Bool}
    (htrace : t.trace = s.trace ++ if changed then recomputeCalls t.params t.cfg else [])
    (hsame : changed = false → t.cfg.payloadSize = s.cfg.payloadSize ∧ t.cfg.address = s.cfg.address) :
    t.Programmed ∨ s.KeepsProgramming t := by
  cases changed with
  | true => exact .inl (programmed_of_recompute htrace)
  | false =>
    obtain ⟨hsize, haddress⟩ := hsame rfl
    have htrace' : t.trace = s.trace := htrace.trans (List.append_nil _)
    exact .inr ⟨by rw [htrace'], hsize, haddress⟩

/-- Every operation programs payload size and pipes anew or leaves them, and what they should be, alone. -/
theorem exec_programs_or_keeps {i : Instr} {s t : State} (h : exec i s = .next t) :
    t.Programmed ∨ s.KeepsProgramming t := by
  cases i with
  | openRadio => exact .inl (exec_openRadio_programmed h)
  | setSyncword sw0 sw3 =>
    obtain rfl := (respond_next_iff ..).mp (exec_setSyncword sw0 sw3 s ▸ h)
    refine programmed_or_keeps_of_recomputeIf rfl fun hsame => ⟨rfl, ?_⟩
    obtain ⟨rfl, rfl⟩ := not_not.mp ((syncwordChanged_eq_true_iff ..).not.mp (ne_true_of_eq_false hsame))
    rfl
  | setMaxPacketLength n =>
    obtain rfl := (respond_next_iff ..).mp (exec_setMaxPacketLength n s ▸ h)
    refine programmed_or_keeps_of_recomputeIf rfl fun hsame => ⟨?_, rfl⟩
    obtain rfl := not_not.mp ((maxPacketLengthChanged_eq_true_iff ..).not.mp (ne_true_of_eq_false hsame))
    rfl
  | setCRC enabled =>
    obtain rfl := eq_of_exec h (setCrcStoresItsOperand enabled s)
    exact .inr ⟨rfl, rfl, rfl⟩
  | receive c =>
    obtain ⟨calls, htrace, hcodes⟩ := eachOperationEmitsItsOwnCalls _ s t h
    have hkeeps := commanded_append_programming s.trace (nine_le_code hcodes (by decide))
    obtain ⟨_, _, _, _, _, rfl, -⟩ := exec_receive_cases h
    exact .inr ⟨htrace ▸ hkeeps, rfl, rfl⟩
  | readFIFO n =>
    obtain rfl := eq_of_exec h (readFifoDrainsFromTheFront n s)
    exact .inr ⟨rfl, rfl, rfl⟩
  | writeFIFO n data =>
    obtain rfl := eq_of_exec h (exec_writeFIFO_eq_next n data s)
    exact .inr ⟨rfl, rfl, rfl⟩
  | transmit c =>
    obtain ⟨calls, htrace, hcodes⟩ := eachOperationEmitsItsOwnCalls _ s t h
    have hkeeps := commanded_append_programming s.trace (nine_le_code hcodes (by decide))
    obtain rfl := eq_of_exec h (transmitWritesTheFramedBufferThreeTimes c s)
    exact .inr ⟨htrace ▸ hkeeps, rfl, rfl⟩
  | setPreambleLength n =>
    obtain rfl := eq_of_exec h (preambleAndTrailerLengthOnlyRespond n s).left
    exact .inr ⟨rfl, rfl, rfl⟩
  | setTrailerLength n =>
    obtain rfl := eq_of_exec h (preambleAndTrailerLengthOnlyRespond n s).right
    exact .inr ⟨rfl, rfl, rfl⟩

/-- Settles O41: `open` ends with Recompute; a later operation recomputes or changes nothing of it. -/
theorem transceiverStaysConsistentAfterOpen : Obligations.TransceiverStaysConsistentAfterOpen := by
  refine ⟨fun s t => exec_openRadio_programmed, fun s t hs h => ?_⟩
  obtain ⟨i, rest, -, hexec⟩ := step_cases s t h
  obtain hprogrammed | hkeeps := exec_programs_or_keeps hexec
  · exact hprogrammed
  · exact hkeeps.programmed ⟨hs.payload, hs.writePipe, hs.readPipe⟩

/-! ### Channel and listen mode -/

/-- Channel selection leaves the trace's last channel, or the default `d` it stands for, at the selected one. -/
theorem commanded_selectChannel {trace : List TCall} {c d old : Byte} (h : old = (commanded trace).channel.getD d) :
    c = (commanded (trace ++ if c = old then [] else [.setChannel c])).channel.getD d := by
  rw [commanded_append]
  split
  · next hsame => exact hsame.trans h
  · rfl

/-- Channel selection commands no listen mode. -/
theorem commanded_selectChannel_listening (trace : List TCall) (c old : Byte) :
    (commanded (trace ++ if c = old then [] else [.setChannel c])).listening = (commanded trace).listening := by
  rw [commanded_append]
  split <;> rfl

/-- Recompute commands neither a channel nor a listen mode. -/
theorem commanded_recompute (trace : List TCall) (p : Params) (cfg : RadioConfiguration) (changed : Bool) :
    (commanded (trace ++ if changed then recomputeCalls p cfg else [])).channel = (commanded trace).channel ∧
    (commanded (trace ++ if changed then recomputeCalls p cfg else [])).listening = (commanded trace).listening := by
  rw [commanded_append]
  cases changed <;> exact ⟨rfl, rfl⟩

/-- The channel register and `listening` are what the trace has commanded since `open`. -/
def State.MirrorsMode (s : State) : Prop :=
  s.cfg.channel = (commanded s.trace).channel.getD s.params.resetChannel ∧
  s.listening = (commanded s.trace).listening

theorem exec_keeps_mirrorsMode {i : Instr} {s t : State} (hs : s.MirrorsMode) (h : exec i s = .next t) :
    t.MirrorsMode := by
  obtain ⟨hchannel, hlistening⟩ := hs
  cases i with
  | openRadio =>
    obtain rfl := eq_of_exec h (openReinitialisesAndProgramsTheTransceiver s)
    rw [State.MirrorsMode, commanded_append]
    exact ⟨rfl, rfl⟩
  | setSyncword sw0 sw3 =>
    obtain rfl := (respond_next_iff ..).mp (exec_setSyncword sw0 sw3 s ▸ h)
    obtain ⟨hchannel', hlistening'⟩ :=
      commanded_recompute s.trace s.params (writeSyncwords sw0 sw3 s).cfg (syncwordChanged sw0 sw3 s.cfg)
    exact ⟨hchannel'.symm ▸ hchannel, hlistening'.symm ▸ hlistening⟩
  | setMaxPacketLength n =>
    obtain rfl := (respond_next_iff ..).mp (exec_setMaxPacketLength n s ▸ h)
    obtain ⟨hchannel', hlistening'⟩ :=
      commanded_recompute s.trace s.params (writeMaxPacketLength n s).cfg (maxPacketLengthChanged n s.cfg)
    exact ⟨hchannel'.symm ▸ hchannel, hlistening'.symm ▸ hlistening⟩
  | setCRC enabled =>
    obtain rfl := eq_of_exec h (setCrcStoresItsOperand enabled s)
    exact ⟨hchannel, hlistening⟩
  | receive c =>
    obtain ⟨_, _, _, reads, _, rfl, -, hreads, -⟩ := exec_receive_cases h
    rw [State.MirrorsMode, commanded_append]
    obtain rfl | rfl := hreads
    · exact ⟨commanded_selectChannel hchannel, rfl⟩
    · exact ⟨commanded_selectChannel hchannel, rfl⟩
  | readFIFO n =>
    obtain rfl := eq_of_exec h (readFifoDrainsFromTheFront n s)
    exact ⟨hchannel, hlistening⟩
  | writeFIFO n data =>
    obtain rfl := eq_of_exec h (exec_writeFIFO_eq_next n data s)
    exact ⟨hchannel, hlistening⟩
  | transmit c =>
    obtain rfl := eq_of_exec h (transmitWritesTheFramedBufferThreeTimes c s)
    have hstopped : s.cfg.channel = (commanded (s.trace ++ [.stopListening])).channel.getD s.params.resetChannel ∧
        false = (commanded (s.trace ++ [.stopListening])).listening := by
      rw [commanded_append]
      exact ⟨hchannel, rfl⟩
    obtain ⟨hchannel', hlistening'⟩ := hstopped
    rw [State.MirrorsMode, commanded_append]
    exact ⟨commanded_selectChannel hchannel', hlistening'.trans (commanded_selectChannel_listening ..).symm⟩
  | setPreambleLength n =>
    obtain rfl := eq_of_exec h (preambleAndTrailerLengthOnlyRespond n s).left
    exact ⟨hchannel, hlistening⟩
  | setTrailerLength n =>
    obtain rfl := eq_of_exec h (preambleAndTrailerLengthOnlyRespond n s).right
    exact ⟨hchannel, hlistening⟩

theorem State.Programmed.mirrors {s : State} (h : s.Programmed) (hmode : s.MirrorsMode) : s.Mirrors where
  payload _ hn := Option.some.inj (hn.symm.trans h.payload)
  writePipe _ ha := Option.some.inj (ha.symm.trans h.writePipe)
  readPipe _ ha := Option.some.inj (ha.symm.trans h.readPipe)
  channel := hmode.left
  listening := hmode.right

theorem State.KeepsProgramming.mirrors {s t : State} (h : s.KeepsProgramming t) (hs : s.Mirrors)
    (hmode : t.MirrorsMode) : t.Mirrors := by
  obtain ⟨hprogramming, hsize, haddress⟩ := h
  obtain ⟨hpayload, hwrite, hread⟩ := (Commanded.programming_eq_iff ..).mp hprogramming
  exact ⟨fun n hn => hsize ▸ hs.payload n (hpayload ▸ hn), fun a ha => haddress ▸ hs.writePipe a (hwrite ▸ ha),
    fun a ha => haddress ▸ hs.readPipe a (hread ▸ ha), hmode.left, hmode.right⟩

/-- Settles O40: payload size and pipes by `exec_programs_or_keeps`, channel and listen mode by `exec_keeps_mirrorsMode`. -/
theorem stepKeepsRegistersMirroringTheCallTrace : Obligations.StepKeepsRegistersMirroringTheCallTrace := by
  intro s t hs h
  obtain ⟨i, rest, -, hexec⟩ := step_cases s t h
  have hmode : t.MirrorsMode := exec_keeps_mirrorsMode (s := writeCommands rest s) ⟨hs.channel, hs.listening⟩ hexec
  obtain hprogrammed | hkeeps := exec_programs_or_keeps hexec
  · exact hprogrammed.mirrors hmode
  · exact hkeeps.mirrors ⟨hs.payload, hs.writePipe, hs.readPipe, hs.channel, hs.listening⟩ hmode

end Sys2Proof.Machine
end
